-- ==== Sys2Proof/Word.lean ====
section
/-! DEFINITION. The word types of the EF-460: bytes, and the opaque identifiers that the part carries
without computing on them (spec/11_message_and_frame_formats.md). -/

namespace Sys2Proof

/-- One byte of a message, a frame or the boot memory. -/
abbrev Byte := BitVec 8

/-- A run of bytes, first byte first. -/
abbrev Bytes := List Byte

/-- The request tag of a riser message (section 8.1): chosen by the server, returned in the REPLY. -/
abbrev Tag := BitVec 16

/-- The ID of a catering order (R90). -/
abbrev OrderId := BitVec 16

/-- The server ID of a reservation (R21). -/
abbrev ServerId := BitVec 32

/-- The organiser tag of a reservation (R21). -/
abbrev OrganiserTag := BitVec 16

end Sys2Proof
end

