-- ==== Sys2Proof/Syntax.lean ====
section
/-! DEFINITION. The commands of the EF-460: one constructor of `Instr` per row of spec/opcode_table.json, with the row's
operands. Operands that a rule checks against a range are plain numbers, so that a value outside the range can be
written down and refused. -/

namespace Sys2Proof

/-- A drop code: line 0..3 and address 1..15 (spec/00_scope.md section 5). -/
structure DropCode where
  line : Nat
  addr : Nat
  deriving DecidableEq, Repr, Inhabited

/-- A room code: building 0..15, floor 0..63, room 0..63 (spec/00_scope.md section 5). -/
structure RoomCode where
  building : Nat
  floor : Nat
  room : Nat
  deriving DecidableEq, Repr, Inhabited

/-- One line of a catering order: item code 0..4095 and quantity 1..63 (R90). -/
structure OrderLine where
  item : Nat
  qty : Nat
  deriving DecidableEq, Repr, Inhabited

/-- One order of a BOOK (R45). -/
structure OrderReq where
  id : OrderId
  pantry : Nat
  deliverBy : Nat
  cutoff : Nat
  lines : List OrderLine
  deriving DecidableEq, Repr, Inhabited

/-- The fields of a BOOK (R45). `day` is the encoded day list: 0 TODAY, 1 NEXT. -/
structure BookReq where
  serverId : ServerId
  day : Nat
  start : Nat
  stop : Nat
  organiser : Option OrganiserTag
  orders : List OrderReq
  deriving DecidableEq, Repr, Inhabited

/-- How an ALTER or a WITHDRAW names its record (R48). -/
inductive Ref where
  | index (i : Nat)
  | serverId (id : ServerId) (day : Nat)
  deriving DecidableEq, Repr, Inhabited

/-- The fields of an ALTER (R49). -/
structure AlterReq where
  ref : Ref
  newStart : Option Nat
  newEnd : Option Nat
  deriving DecidableEq, Repr, Inhabited

/-- The floor record (R167), as it is held and as a LOAD carries it. -/
structure FloorRecord where
  building : Nat
  floor : Nat
  windowLow : Nat
  windowHigh : Nat
  localWeight : Nat
  onwardWeight : Nat
  offlineTimeout : Nat
  riserType : Nat
  deriving DecidableEq, Repr, Inhabited

/-- The contents of a Room Class LOAD (R3): yes-or-no fields still as bytes, 0 no and 1 yes. -/
structure RoomClassLoad where
  grace : Nat
  turnaround : Nat
  clean : Nat
  walkupMax : Nat
  presence : Nat
  autoEnd : Nat
  weight : Nat
  decay : Nat
  bump : Nat
  tOn : Nat
  tOff : Nat
  closedAtStart : Nat
  deriving DecidableEq, Repr, Inhabited

/-- The contents of a Drop Table LOAD (R144): `kind` is the encoded kind, 0 NONE, 1 ROOM_PANEL, 2 ROOM_SENSOR,
3 PANTRY. -/
structure DropLoad where
  kind : Nat
  room : Option Nat
  pantry : Option Nat
  deriving DecidableEq, Repr, Inhabited

/-- The contents of a Line config LOAD (R121). Each phase is its encoded byte: 1..15 an address, 16 PROBE, 0 EMPTY,
32 address 0 (taken as EMPTY). -/
structure LineLoad where
  timeoutCode : Nat
  powerAtStart : Bool
  phases : List Nat
  deriving DecidableEq, Repr, Inhabited

/-- The contents of a Pantry config LOAD (R88). -/
structure PantryLoad where
  drop : Option DropCode
  lead : Nat
  timeoutCode : Nat
  deriving DecidableEq, Repr, Inhabited

/-- The sensing judgement of a room (R71). -/
inductive Verdict where
  | vacant | occupied | unknown | noSensor
  deriving DecidableEq, Repr, Inhabited

/-- A room's entry of a tick report (R83). -/
structure ReportEntry where
  verdict : Verdict
  vacantRun : Nat
  deriving DecidableEq, Repr, Inhabited

/-- Where a panel's or a sensor's frame comes from. `room` is the room the drop was bound to, in NORMAL mode, when its
frame arrived; none when the frame arrives with this very command (R52, R73, R74; log entry 5). -/
structure FrameFrom where
  drop : DropCode
  room : Option Nat
  deriving DecidableEq, Repr, Inhabited

/-- A pantry's report: READY when `refuse` is none, else REFUSE with its reason (R106). -/
structure PantryReport where
  order : OrderId
  refuse : Option Byte
  deriving DecidableEq, Repr, Inhabited

/-- The fields of a PANTRY_STATUS frame (R106). -/
structure PantryStatus where
  limit : Byte
  seq : Option Byte
  nack : Bool
  resyncAck : Bool
  report : Option PantryReport
  deriving DecidableEq, Repr, Inhabited

/-- The commands, in the order of spec/opcode_table.json. A request of the server carries its request tag first; a READ
carries its read-and-clear operand. -/
inductive Instr where
  /-- POWER_ON (R197). -/
  | powerOn
  /-- RESET_INPUT (R197): the release of the reset input. -/
  | resetInput
  /-- BOOT_HEADER_READ (R198). -/
  | bootHeaderRead
  /-- BOOT_RECORD_READ (R199). -/
  | bootRecordRead
  /-- BOOT_MEMORY_TIMEOUT (R198, R199). -/
  | bootMemoryTimeout
  /-- UPLINK_ARRIVAL (R169): the Ethernet type value and the bytes after it. -/
  | uplinkArrival (typeValue : Nat) (payload : Bytes)
  /-- ONWARD_ARRIVAL (R169). -/
  | onwardArrival (typeValue : Nat) (payload : Bytes)
  /-- ROUTE_MESSAGE (R170). -/
  | routeMessage
  /-- UPLINK_TRANSMIT_END (R177). -/
  | uplinkTransmitEnd
  /-- ONWARD_TRANSMIT_END (R175). -/
  | onwardTransmitEnd
  /-- UPLINK_LINK_CHANGE (R176). -/
  | uplinkLinkChange (up : Bool)
  /-- ONWARD_LINK_CHANGE (R175). -/
  | onwardLinkChange (up : Bool)
  /-- OFFLINE_TIMER_EXPIRY (R178). -/
  | offlineTimerExpiry
  /-- BOOK (R45), for a room by local index. -/
  | book (tag : Tag) (room : Nat) (req : BookReq)
  /-- ALTER (R49); `room` is none in FLOOR form. -/
  | alter (tag : Tag) (room : Option Nat) (req : AlterReq)
  /-- WITHDRAW (R51); `room` is none in FLOOR form. -/
  | withdraw (tag : Tag) (room : Option Nat) (ref : Ref)
  /-- CONTENT_ROOM (R162): the state field and the text. -/
  | contentRoom (tag : Tag) (room : Nat) (state : Byte) (text : Bytes)
  /-- CONTENT_DROP (R163). -/
  | contentDrop (tag : Tag) (drop : DropCode) (state : Byte) (text : Bytes)
  /-- SERVICE (R164). -/
  | service (tag : Tag) (drop : DropCode) (body : Bytes)
  /-- TIME (R16). -/
  | time (tag : Tag) (day : Nat) (minute : Nat) (seconds : Nat)
  /-- TIME_STEP_COMPLETE (R16). -/
  | timeStepComplete
  /-- LOAD_FLOOR_RECORD (R167). -/
  | loadFloorRecord (tag : Tag) (entry : Nat) (rec : FloorRecord)
  /-- LOAD_ROOM_MAP (R1). -/
  | loadRoomMap (tag : Tag) (entry : Nat) (code : Option RoomCode)
  /-- LOAD_ROOM_CLASS (R3). -/
  | loadRoomClass (tag : Tag) (entry : Nat) (fields : RoomClassLoad)
  /-- LOAD_ROOM_TABLE (R5). -/
  | loadRoomTable (tag : Tag) (entry : Nat) (cls : Nat)
  /-- LOAD_DROP_TABLE (R145). -/
  | loadDropTable (tag : Tag) (drop : DropCode) (fields : DropLoad)
  /-- LOAD_LINE_CONFIG (R122). -/
  | loadLineConfig (tag : Tag) (line : Nat) (fields : LineLoad)
  /-- LOAD_PANTRY_CONFIG (R88). -/
  | loadPantryConfig (tag : Tag) (pantry : Nat) (fields : PantryLoad)
  /-- READ_FLOOR_RECORD (R185). -/
  | readFloorRecord (tag : Tag) (clear : Bool)
  /-- READ_ROOM_MAP (R185). -/
  | readRoomMap (tag : Tag) (clear : Bool) (entry : Nat)
  /-- READ_ROOM_CLASS (R185). -/
  | readRoomClass (tag : Tag) (clear : Bool) (entry : Nat)
  /-- READ_ROOM_TABLE (R5). -/
  | readRoomTable (tag : Tag) (clear : Bool) (entry : Nat)
  /-- READ_PANTRY_CONFIG (R185). -/
  | readPantryConfig (tag : Tag) (clear : Bool) (entry : Nat)
  /-- READ_RESERVATION (R36). -/
  | readReservation (tag : Tag) (clear : Bool) (index : Nat)
  /-- READ_ORDER (R91). -/
  | readOrder (tag : Tag) (clear : Bool) (id : OrderId)
  /-- READ_EVIDENCE (R72). -/
  | readEvidence (tag : Tag) (clear : Bool) (room : Nat)
  /-- READ_DROP (R166). -/
  | readDrop (tag : Tag) (clear : Bool) (drop : DropCode)
  /-- READ_LINE (R143). -/
  | readLine (tag : Tag) (clear : Bool) (line : Nat)
  /-- READ_PANTRY_LINK (R120). -/
  | readPantryLink (tag : Tag) (clear : Bool) (pantry : Nat)
  /-- READ_RISER_PORT (R182). -/
  | readRiserPort (tag : Tag) (clear : Bool)
  /-- READ_FLOOR_CLOCK (R186). -/
  | readFloorClock (tag : Tag) (clear : Bool)
  /-- READ_EVENT_LATCH (R186). -/
  | readEventLatch (tag : Tag) (clear : Bool) (latch : Nat)
  /-- READ_EVENT_SUMMARY (R186). -/
  | readEventSummary (tag : Tag) (clear : Bool)
  /-- READ_BOOT_STATUS (R202). -/
  | readBootStatus (tag : Tag) (clear : Bool)
  /-- LIST_DIRTY (R34). -/
  | listDirty (tag : Tag) (cursor : Nat)
  /-- MARK_CLEAN (R35). -/
  | markClean (tag : Tag) (index : Nat) (version : Byte)
  /-- LINE_POWER_ON (R125). -/
  | linePowerOn (tag : Tag) (line : Nat)
  /-- LINE_POWER_OFF (R126). -/
  | linePowerOff (tag : Tag) (line : Nat)
  /-- LINE_BREAK (R128). -/
  | lineBreak (tag : Tag) (line : Nat)
  /-- DROP_MODE (R149): the encoded mode, 0 ISOLATED, 1 NORMAL, 2 EXCLUDED, 3 SHADOW. -/
  | dropMode (tag : Tag) (drop : DropCode) (mode : Nat)
  /-- ROOM_CLOSE (R7). -/
  | roomClose (tag : Tag) (room : Nat)
  /-- ROOM_OPEN (R9). -/
  | roomOpen (tag : Tag) (room : Nat)
  /-- PANTRY_RESYNC (R100). -/
  | pantryResync (tag : Tag) (pantry : Nat)
  /-- CLEAR (R195). -/
  | clear (tag : Tag) (latch : Nat)
  /-- BOOT_WRITE (R188). -/
  | bootWrite (tag : Tag) (offset : Nat) (run : Bytes)
  /-- BOOT_PAGE_WRITE_DONE (R189). -/
  | bootPageWriteDone
  /-- BOOT_WRITE_ACK_TIMEOUT (R189). -/
  | bootWriteAckTimeout
  /-- BOOT_READBACK_DONE (R189): the bytes the memory gave back. -/
  | bootReadbackDone (bytes : Bytes)
  /-- RESTART (R190). -/
  | restart (tag : Tag)
  /-- RESTART_TIMEOUT (R190). -/
  | restartTimeout
  /-- CLOCK_SECOND (R12). -/
  | clockSecond
  /-- EVIDENCE_TICK (R77). -/
  | evidenceTick
  /-- TICK_REPORT (R65): one entry per room, by local index. -/
  | tickReport (entries : List ReportEntry)
  /-- SLOT_BOUNDARY (R14): the day it belongs to and the slot. -/
  | slotBoundary (day : Nat) (slot : Nat)
  /-- BOOKING_SLOT_RUN (R59). -/
  | bookingSlotRun (day : Nat) (slot : Nat)
  /-- DISPATCHER_SLOT_RUN (R94). -/
  | dispatcherSlotRun (slot : Nat)
  /-- DAY_BOUNDARY (R15): the number of the day that ends. -/
  | dayBoundary (oldDay : Nat)
  /-- WITHDRAW_NOTICE (R116): the record, and the slot of the boundary that sent it. -/
  | withdrawNotice (record : Nat) (slot : Option Nat)
  /-- ORDER_OUTCOME_NOTICE (R64). -/
  | orderOutcomeNotice (record : Nat) (order : OrderId)
  /-- KEY_CHECK_IN (R53). -/
  | keyCheckIn (src : FrameFrom)
  /-- KEY_END (R55). -/
  | keyEnd (src : FrameFrom)
  /-- KEY_EXTEND (R56). -/
  | keyExtend (src : FrameFrom)
  /-- WALKUP (R57). -/
  | walkup (src : FrameFrom) (n : Nat)
  /-- SAMPLE (R73). -/
  | sample (src : FrameFrom) (level : Nat)
  /-- ENTRY (R74): the contact, open or closed. -/
  | entry (src : FrameFrom) (isOpen : Bool)
  /-- PANTRY_STATUS (R106). -/
  | pantryStatus (drop : DropCode) (status : PantryStatus)
  /-- REPLAY_TIMER_EXPIRY (R114). -/
  | replayTimerExpiry (pantry : Nat)
  /-- SETTLING_END (R127). -/
  | settlingEnd (line : Nat)
  /-- BREAK_LOW_END (R127). -/
  | breakLowEnd (line : Nat)
  /-- BREAK_QUIET_END (R127). -/
  | breakQuietEnd (line : Nat)
  /-- POWER_FAULT (R129). -/
  | powerFault (line : Nat)
  /-- WALK_PHASE (R131). -/
  | walkPhase (line : Nat)
  /-- DOWN_FRAME_SENT (R135). -/
  | downFrameSent (line : Nat)
  /-- UP_FRAME_RECEIVED (R138): the frame's bytes, address byte to check byte. -/
  | upFrameReceived (line : Nat) (frame : Bytes)
  /-- ANSWER_TIMEOUT (R135). -/
  | answerTimeout (line : Nat)
  /-- FRAME_END_TIMEOUT (R135). -/
  | frameEndTimeout (line : Nat)
  /-- ABANDONED_TURN_END (R141). -/
  | abandonedTurnEnd (line : Nat)
  /-- UP_FRAME_FIRST_BYTE (R135). -/
  | upFrameFirstByte (line : Nat)
  /-- RESET_INPUT_HELD_LOW (R197). -/
  | resetInputHeldLow
  deriving DecidableEq, Repr

end Sys2Proof
end

