-- ==== Sys2Proof/Decode.lean ====
section
/-! DEFINITION. The command that a word spells by the opcode table's bits. -/

namespace Sys2Proof

/-- The rows of spec/opcode_table.json give no bits: the part's commands are arrivals, events and requests, not words. So
no word spells a command (log entry 32). The bytes of riser messages and line frames are read in
Machine/Formats.lean. -/
def decodeTableWord (_nbits _w : Nat) : Option Instr := none

end Sys2Proof
end

