-- ==== Sys2Proof/Config.lean ====
section
/-! DEFINITION. What the spec leaves open: the free values. Each is opaque, so nothing can be proved of it, and a
statement about a state holds whatever it is. Every one is applied to a counter of State (`freeCount`) that is
advanced with each use. -/

namespace Sys2Proof

/-- DESIGN CHOICE (log entry 17). The byte the boot memory holds at an offset of a page whose write faulted or was
cut off by a reset: "the bytes of the faulting page are as the memory left them" (R189), "whatever the memory made of
the cut transfer" (R189). First argument: which free value; second: the offset. -/
opaque Config.freePageByte : Nat → Nat → Byte

/-- DESIGN CHOICE (log entry 14). Whether a KEY END is answered GRANTED when the IN_USE reservation's end already lies
before the bound of R55; the rule gives no answer for that case. -/
opaque Config.freeGranted : Nat → Bool

/-- DESIGN CHOICE (log entry 25). The order ID that a replayed frame carries whose order record has been freed
(R103 keeps the frame, its kind and its sequence number, and says nothing of the other fields). -/
opaque Config.freeOrderId : Nat → OrderId

/-- DESIGN CHOICE (log entry 25). The fields after the sequence number of a replayed ORDER frame whose order record has
been freed. -/
opaque Config.freeOrderTail : Nat → Bytes

/-- DESIGN CHOICE (log entry 50). Whether the grant of an entry that becomes free in a full local transmit queue is left
until the next command, so that an UPFRAME can take the entry first; R173 lets the two be taken in either order. -/
opaque Config.grantLate : Nat → Bool

end Sys2Proof
end

