-- ==== Sys2Proof/Machine/State.lean ====
section
/-! DEFINITION. The state of the EF-460 as plain data, the outcomes of a step that are not a next state, and the state
right after reset. Each block's state stands in a structure of its own; the rules that give each field, its range and
its reset value are named at the field. -/

namespace Sys2Proof.Machine

/-! ## Reservations (spec/02) -/

/-- The day lists (R21). -/
inductive Day where
  | today | next | past
  deriving DecidableEq, Repr, Inhabited

/-- The six states of a reservation (chapter 3). -/
inductive ResState where
  | booked | due | inUse | released | ended | cancelled
  deriving DecidableEq, Repr, Inhabited

inductive Origin where
  | server | panel
  deriving DecidableEq, Repr, Inhabited

/-- How a meeting was checked in (R21). -/
inductive How where
  | key | presence
  deriving DecidableEq, Repr, Inhabited

inductive EndReason where
  | normalEnd | endEarly | autoEnd | endUnused | noShow | withdrawn | roomClosed
  deriving DecidableEq, Repr, Inhabited

structure CheckIn where
  slot : Nat
  how : How
  deriving DecidableEq, Repr, Inhabited

structure ClosedAt where
  day : Nat
  slot : Nat
  deriving DecidableEq, Repr, Inhabited

/-- A reservation record in use (R21). -/
structure Reservation where
  room : Nat
  day : Day
  state : ResState
  start : Nat
  stop : Nat
  tail : Nat
  origin : Origin
  serverId : Option ServerId
  organiser : Option OrganiserTag
  early : Bool
  checkIn : Option CheckIn
  endReason : Option EndReason
  closedAt : Option ClosedAt
  occupied : Nat
  orders : List OrderId
  cateringFault : Bool
  version : Byte
  dirty : Bool
  deriving DecidableEq, Repr, Inhabited

/-! ## Rooms (spec/01) -/

/-- The service states of a room (section 1.4). -/
inductive Service where
  | opened | closing | closed
  deriving DecidableEq, Repr, Inhabited

/-- A Room Class Table entry (R3). -/
structure RoomClass where
  grace : Nat
  turnaround : Nat
  clean : Nat
  walkupMax : Nat
  presence : Bool
  autoEnd : Nat
  weight : Nat
  decay : Nat
  bump : Nat
  tOn : Nat
  tOff : Nat
  closedAtStart : Bool
  deriving DecidableEq, Repr, Inhabited

/-- A Room Table entry (R5) with the room's day lists (R24). The bound drops follow from the Drop Table. -/
structure RoomEntry where
  cls : Nat
  service : Service
  today : List Nat
  next : List Nat
  deriving DecidableEq, Repr, Inhabited

/-- The Floor Clock (R12). -/
structure Clock where
  isSet : Bool
  seconds : Nat
  minute : Nat
  day : Nat
  periods : Nat
  deriving DecidableEq, Repr, Inhabited

/-- The kinds of TIME step (R16). -/
inductive StepKind where
  | firstSet | forward | backward | nextDay | flush
  deriving DecidableEq, Repr, Inhabited

/-- A taken TIME step whose reply is not yet placed (R16). -/
structure TimeStep where
  tag : Tag
  kind : StepKind
  day : Nat
  minute : Nat
  seconds : Nat
  boundaries : Nat
  deriving DecidableEq, Repr, Inhabited

/-- An evidence record (R71). -/
structure Evidence where
  value : Nat
  peak : Nat
  sampleSeen : Bool
  stale : Nat
  entryBump : Bool
  verdict : Verdict
  vacantRun : Nat
  deriving DecidableEq, Repr, Inhabited

/-! ## Catering (spec/05) -/

/-- The eleven states of an order, in the order of the state table (section 5.2). -/
inductive OrderState where
  | held | queued | sent | accepted | cancelPending | delivered | cancelled | refused | wasted | failed | expired
  deriving DecidableEq, Repr, Inhabited

/-- An order record (R90). -/
structure Order where
  id : OrderId
  res : Nat
  pantry : Nat
  deliverBy : Nat
  cutoff : Nat
  lines : List OrderLine
  late : Bool
  cancelPending : Bool
  state : OrderState
  refuseReason : Option Byte
  seq : Option Byte
  deriving DecidableEq, Repr, Inhabited

inductive FrameKind where
  | order | cancel
  deriving DecidableEq, Repr, Inhabited

/-- A frame of a replay list (R97). `order` is none when its order record has been freed (R103). -/
structure ReplayFrame where
  kind : FrameKind
  seq : Byte
  order : Option OrderId
  deriving DecidableEq, Repr, Inhabited

inductive LinkState where
  | down | syncing | up | faulted
  deriving DecidableEq, Repr, Inhabited

/-- A running replay timer: the remaining time and the period it was started with, both in milliseconds (R89, R114), and the
TIME messages taken since the start, each of which may have cut a second of the count short (R12; log entry 49). -/
structure ReplayTimer where
  left : Nat
  period : Nat
  cuts : Nat := 0
  deriving DecidableEq, Repr, Inhabited

/-- A pantry: its config entry (R88), its queues (R95, R96) and its link record (R97). -/
structure Pantry where
  drop : Option DropCode
  lead : Nat
  timeoutCode : Nat
  dispatch : List OrderId
  cancels : List OrderId
  link : LinkState
  nextSeq : Byte
  consumed : Byte
  limit : Byte
  replay : List ReplayFrame
  replayPos : Option Nat
  replayCount : Nat
  replayTimer : Option ReplayTimer
  taken : Option OrderId
  staleAcks : Nat
  creditRange : Nat
  deriving DecidableEq, Repr, Inhabited

/-! ## Drops and panel displays (spec/07) -/

/-- The configured kinds of a drop (R144). -/
inductive DropKind where
  | unused | roomPanel | roomSensor | pantry
  deriving DecidableEq, Repr, Inhabited

inductive DropMode where
  | isolated | normal | excluded | shadow
  deriving DecidableEq, Repr, Inhabited

/-- The requests an ANSWER can answer (section 11.3). -/
inductive PanelRequest where
  | checkIn | finish | extend | walkup
  deriving DecidableEq, Repr, Inhabited

/-- The reasons of a REFUSED answer (R52). -/
inductive Reason where
  | noTime | roomClosed | notYet | noMeeting | tooLate | nextTooSoon | inUse | bookedNow | turnaround
  | roomListFull | poolFull
  deriving DecidableEq, Repr, Inhabited

inductive AnswerResult where
  | granted (start stop : Nat)
  | refused (reason : Reason)
  deriving DecidableEq, Repr, Inhabited

/-- An ANSWER (R52, R152). -/
structure Answer where
  request : PanelRequest
  result : AnswerResult
  deriving DecidableEq, Repr, Inhabited

/-- An item of a drop's FIFO (R151). -/
inductive Item where
  | content (state : Byte) (text : Bytes)
  | service (body : Bytes)
  deriving DecidableEq, Repr, Inhabited

inductive InFlight where
  | none | answer | show | content | service
  deriving DecidableEq, Repr, Inhabited

/-- A Drop Table entry: configured part (R144) and runtime part (R146, R151). -/
structure Drop where
  kind : DropKind
  room : Option Nat
  pantry : Option Nat
  reported : Option DropKind
  mode : DropMode
  present : Bool
  miss : Nat
  answer : Option Answer
  stale : Bool
  showLast : Bool
  fifo : List Item
  inFlight : InFlight
  droppedItems : Nat
  ignoredFrames : Nat
  deriving DecidableEq, Repr, Inhabited

/-- The state codes of a display, in the order of their encoding (section 11.3). -/
inductive StateCode where
  | noRoom | free | freeSoon | due | dueLast | inUse | turnaround | closing | closed | noTime
  deriving DecidableEq, Repr, Inhabited

inductive Ring where
  | off | green | amber | red
  deriving DecidableEq, Repr, Inhabited

/-- The display record of a SHOW (R160). -/
structure Display where
  code : StateCode
  ring : Ring
  blink : Bool
  minutes : Option Nat
  organiser : Option OrganiserTag
  offline : Bool
  cateringFault : Bool
  deriving DecidableEq, Repr, Inhabited

/-- What an ORDER frame carries from its order record and reservation (R101). -/
structure OrderFields where
  id : OrderId
  room : Option RoomCode
  roomIndex : Nat
  deliverBy : Nat
  late : Bool
  organiser : Option OrganiserTag
  lines : List OrderLine
  deriving DecidableEq, Repr, Inhabited

/-- The down frames of a panel line (section 11.3). `poll`'s operand is none for a drop that is no pantry, else the
taken field. A `freed` frame is a replayed frame whose order record has been freed; its open fields are the free values
numbered by the last operand (log entry 25). -/
inductive DownFrame where
  | probe
  | poll (taken : Option (Option OrderId))
  | answer (a : Answer)
  | show (d : Display)
  | content (state : Byte) (text : Bytes)
  | service (body : Bytes)
  | order (taken : Option OrderId) (seq : Byte) (fields : OrderFields)
  | cancel (taken : Option OrderId) (id : OrderId) (seq : Byte)
  | resync (taken : Option OrderId)
  | freed (taken : Option OrderId) (kind : FrameKind) (seq : Byte) (free : Nat)
  deriving DecidableEq, Repr, Inhabited

/-! ## Panel lines (spec/06) -/

inductive LineState where
  | off | settling | breaking | running | fault
  deriving DecidableEq, Repr, Inhabited

inductive WalkState where
  | walking | parked
  deriving DecidableEq, Repr, Inhabited

/-- A schedule entry (R121). -/
inductive Phase where
  | address (addr : Nat)
  | probe
  | empty
  deriving DecidableEq, Repr, Inhabited

/-- Where a turn stands (R134, R135): the down frame is being transmitted, the answer timeout runs, or an up frame has
begun. -/
inductive TurnStage where
  | sending | waiting | receiving
  deriving DecidableEq, Repr, Inhabited

/-- A turn record (section 6.4), with the down frame and the stage of the exchange. The timeout is in milliseconds. -/
structure Turn where
  addr : Nat
  probe : Bool
  timeout : Nat
  waits : Nat
  abandoned : Bool
  stage : TurnStage
  frame : DownFrame
  deriving DecidableEq, Repr, Inhabited

/-- An up frame in reception that is not the answer of a turn from its first byte on (R135, R140, R141; log entry 37): it
began while a down frame was being transmitted; it is outside a turn; it is to be discarded uncounted. -/
inductive Incoming where
  | collided | outside | discarded
  deriving DecidableEq, Repr, Inhabited

/-- A line: its config entry (R121) and its line record (R123), with the up frame in reception outside a turn's answer
(R135, R140). -/
structure Line where
  timeoutCode : Nat
  powerAtStart : Bool
  schedule : Vector Phase 32
  state : LineState
  breakLow : Bool
  feed : Bool
  pointer : Nat
  walk : WalkState
  cursor : Nat
  turn : Option Turn
  reload : Bool
  incoming : Option Incoming
  errors : Nat
  timeouts : Nat
  deriving DecidableEq, Repr

/-! ## Events, boot and management (spec/09, spec/10) -/

/-- An event latch (R192). `raiseCount` is the raise count of the EVENT last made, kept for an EVENT that waits unsent
(R194). -/
structure Latch where
  isSet : Bool
  causes : BitVec 8
  pendingCount : Nat
  pendingCauses : BitVec 8
  unsent : Bool
  raiseCount : Nat
  deriving DecidableEq, Repr, Inhabited

inductive LoadState where
  | loading | done | partly | blank
  deriving DecidableEq, Repr, Inhabited

inductive BlankReason where
  | badSignature | badLength | noMemory
  deriving DecidableEq, Repr, Inhabited

inductive SkipCause where
  | badTable | badRecord | truncated | noFloorRecord | memoryFault
  deriving DecidableEq, Repr, Inhabited

/-- What a boot load reads next: the header, the record at an offset of an image that ends before `limit` (`first`
marks the image's first record), or nothing. -/
inductive LoaderPhase where
  | header
  | records (offset limit : Nat) (first : Bool)
  | idle
  deriving DecidableEq, Repr, Inhabited

/-- The write in flight (R188, R189). -/
structure Write where
  tag : Tag
  offset : Nat
  run : Bytes
  written : Nat
  readback : Bool
  deriving DecidableEq, Repr, Inhabited

/-- The boot status (R197). -/
structure Boot where
  load : LoadState
  blank : Option BlankReason
  applied : Nat
  clamped : Nat
  skipped : Nat
  firstSkip : Option (Nat × SkipCause)
  write : Option Write
  phase : LoaderPhase
  deriving DecidableEq, Repr, Inhabited

/-! ## Riser messages (spec/08, spec/11) -/

/-- The seventeen message kinds (section 11.1). -/
inductive MsgKind where
  | book | alter | withdraw | content | service | time | load | read | listDirty | markClean | control | clear
  | bootWrite | restart | reply | event | upframe
  deriving DecidableEq, Repr, Inhabited

/-- The reply codes, in the order of their encoding (section 11.2). -/
inductive Code where
  | ok | accepted | badMessage | badTable | badState | badWindow | noTime | past | roomClosed | duplicateId | conflict
  | roomListFull | poolFull | orderPoolFull | notFound | staleVersion | busy | notReady | unroutable | unknownRoom
  | notPresent | kindMismatch | queueFull | dropIsolated | memoryFault
  deriving DecidableEq, Repr, Inhabited

/-- An entry of a LIST_DIRTY reply (R34). -/
structure DirtyEntry where
  index : Nat
  version : Byte
  room : Nat
  day : Day
  state : ResState
  deriving DecidableEq, Repr, Inhabited

/-- What a READ of the riser port record returns beside the floor record (R182). -/
structure RiserReading where
  online : Bool
  timer : Option Nat
  receive : Nat
  onwardQueue : Nat
  upwardQueue : Nat
  localQueue : Nat
  reservations : Nat
  replyHeld : Bool
  eventClaim : Bool
  grantEvent : Bool
  shareOnward : Bool
  shareCount : Nat
  counters : List Nat
  deriving DecidableEq, Repr, Inhabited

/-- The body of a REPLY (section 11.2 and section 11.4). A READ body holds the record as it was read. -/
inductive Body where
  | none
  | index (i : Nat)
  | version (v : Byte)
  | offset (n : Nat)
  | timeStep (t : TimeStep)
  | dirtyList (entries : List DirtyEntry) (next : Option Nat)
  | loaded (table entry : Nat) (clamped : Bool)
  | altered (i : Nat) (version : Byte) (start stop : Nat)
  | withdrawn (i : Nat) (version : Byte)
  | cleared (isSet : Bool) (causes : BitVec 8)
  | copies (n : Nat)
  | floorRecord (r : FloorRecord)
  | roomMap (code : Option RoomCode)
  | roomClass (c : RoomClass)
  | roomTable (cls : Nat) (panels : List DropCode) (sensor : Option DropCode) (service : Service)
  | pantryConfig (drop : Option DropCode) (lead code : Nat)
  | reservation (i : Nat) (r : Reservation)
  | order (o : Order)
  | evidence (e : Evidence)
  | drop (code : DropCode) (d : Drop) (display : Option Display)
  | line (l : Line)
  | pantryLink (p : Pantry)
  | riserPort (r : FloorRecord) (x : RiserReading)
  | floorClock (c : Clock) (slot : Option Nat) (busy : Bool)
  | eventLatch (l : Latch) (counts : Option (Nat × Nat))
  | eventSummary (isSet unsent : List Nat)
  | bootStatus (b : Boot)
  deriving DecidableEq, Repr

/-- A message the part itself makes (section 8.1). `building` and `floor` are its source as the message was placed. A
reply carries the tag and kind of the request it answers. -/
inductive UpMsg where
  | reply (building floor : Nat) (tag : Tag) (kind : MsgKind) (code : Code) (body : Body)
  | event (building floor : Nat) (latch : Nat) (causes : BitVec 8) (raiseCount : Nat) (flush discard : Option Nat)
  | upframe (building floor : Nat) (drop : DropCode) (kind : Byte) (body : Bytes)
  deriving DecidableEq, Repr

/-- The message on the uplink transmitter: one of the part's own, or one from the floors below, as it arrived. -/
inductive UplinkTx where
  | own (m : UpMsg)
  | forwarded (m : Bytes)
  deriving DecidableEq, Repr

/-- The Riser Port (chapter 8). Messages of the three forwarding queues are held as they arrived: header and body.
A reservation names the request whose reply it waits for. The offline timer holds remaining seconds. MODEL: `freed` marks
an entry of a full local transmit queue that has become free while a claim waits, and whose grant is still to be taken
(R173; log entry 50). `offlineCuts` counts the TIME messages taken since the start of the offline timer (log entry 49). -/
structure Riser where
  receive : List Bytes
  onwardQueue : List Bytes
  upwardQueue : List Bytes
  localQueue : List UpMsg
  reservations : List (MsgKind × Tag)
  freed : Bool
  replyHeld : Bool
  grantEvent : Bool
  shareOnward : Bool
  shareCount : Nat
  online : Bool
  offlineTimer : Option Nat
  offlineCuts : Nat
  uplinkForeign : Nat
  onwardForeign : Nat
  malformed : Nat
  receiveDrops : Nat
  onwardDrops : Nat
  upwardDrops : Nat
  upframeDrops : Nat
  uplinkTx : Option UplinkTx
  onwardTx : Option Bytes
  uplinkUp : Bool
  onwardUp : Bool
  deriving DecidableEq, Repr

/-! ## The state -/

/-- The state of the part. -/
structure State where
  /-- MODEL: the commands that wait, first in, first out. -/
  pending : List Instr
  /-- MODEL: work handed from one block to another and not yet taken, oldest first (log entry 2). -/
  due : List Instr
  /-- MODEL: the number of the next free value (log entry 36). -/
  freeCount : Nat
  /-- The reset input is held low (R197). -/
  resetLow : Bool
  floor : FloorRecord
  riser : Riser
  clock : Clock
  timeStep : Option TimeStep
  roomMap : Vector (Option RoomCode) 48
  classes : Vector RoomClass 8
  rooms : Vector RoomEntry 48
  pool : Vector (Option Reservation) 768
  evidence : Vector Evidence 48
  orders : List Order
  pantries : Vector Pantry 8
  lines : Vector Line 4
  drops : Vector Drop 60
  latches : Vector Latch 121
  unsent : List Nat
  flushCount : Nat
  discardCount : Nat
  /-- The RESTART that waits to begin (R190), by its tag. -/
  restart : Option Tag
  boot : Boot
  /-- The boot memory (section 9.5), in canonical form (Machine/Ops.lean). -/
  bootMem : List Host.Cell
  deriving DecidableEq, Repr

/-- Why a step can stop: nothing. Every command of the EF-460 has an effect in every state (INVENTORY.md, Faults), so
no command raises a fault. -/
inductive Fault where
  deriving DecidableEq, Repr

/-- Why a step can be refused. -/
inductive Refusal where
  /-- A command that has no meaning in the model yet, raised by `exec`'s arm of that command alone; safe. No command of
  this model is left so. -/
  | notModelled (mnemonic : String)
  deriving DecidableEq, Repr

/-! ## Reset values -/

/-- R167. -/
def resetFloorRecord : FloorRecord :=
  { building := 0, floor := 0, windowLow := 1, windowHigh := 0, localWeight := 2, onwardWeight := 1,
    offlineTimeout := 60, riserType := 0x9D4E }

/-- R168, R174, R176, R178, R181; the links are inputs (log entry 19). -/
def Riser.reset : Riser :=
  { receive := [], onwardQueue := [], upwardQueue := [], localQueue := [], reservations := [], freed := false,
    replyHeld := false, grantEvent := false, shareOnward := false, shareCount := 0, online := true, offlineTimer := none, offlineCuts := 0,
    uplinkForeign := 0, onwardForeign := 0, malformed := 0, receiveDrops := 0, onwardDrops := 0, upwardDrops := 0,
    upframeDrops := 0, uplinkTx := none, onwardTx := none, uplinkUp := false, onwardUp := false }

/-- R12. -/
def Clock.reset : Clock := { isSet := false, seconds := 0, minute := 0, day := 0, periods := 0 }

/-- R3. -/
def RoomClass.reset : RoomClass :=
  { grace := 3, turnaround := 1, clean := 0, walkupMax := 6, presence := false, autoEnd := 0, weight := 16, decay := 32,
    bump := 2000, tOn := 12000, tOff := 6000, closedAtStart := false }

/-- R5, R24. -/
def RoomEntry.reset : RoomEntry := { cls := 0, service := .opened, today := [], next := [] }

/-- R71. -/
def Evidence.reset : Evidence :=
  { value := 0, peak := 0, sampleSeen := false, stale := 0, entryBump := false, verdict := .noSensor, vacantRun := 0 }

/-- R88, R95, R96, R97. -/
def Pantry.reset : Pantry :=
  { drop := none, lead := 3, timeoutCode := 1, dispatch := [], cancels := [], link := .down, nextSeq := 0, consumed := 0,
    limit := 0, replay := [], replayPos := none, replayCount := 0, replayTimer := none, taken := none, staleAcks := 0,
    creditRange := 0 }

/-- R121: phases 0 to 14 name addresses 1 to 15, phase 15 is PROBE, phases 16 to 30 name 1 to 15, phase 31 is PROBE. -/
def resetSchedule : Vector Phase 32 :=
  #v[.address 1, .address 2, .address 3, .address 4, .address 5, .address 6, .address 7, .address 8, .address 9,
     .address 10, .address 11, .address 12, .address 13, .address 14, .address 15, .probe,
     .address 1, .address 2, .address 3, .address 4, .address 5, .address 6, .address 7, .address 8, .address 9,
     .address 10, .address 11, .address 12, .address 13, .address 14, .address 15, .probe]

/-- R121, R123. -/
def Line.reset : Line :=
  { timeoutCode := 1, powerAtStart := false, schedule := resetSchedule, state := .off, breakLow := false, feed := false,
    pointer := 0, walk := .walking, cursor := 0, turn := none, reload := false, incoming := none, errors := 0,
    timeouts := 0 }

/-- R144, R146, R151. -/
def Drop.reset : Drop :=
  { kind := .unused, room := none, pantry := none, reported := none, mode := .isolated, present := false, miss := 0,
    answer := none, stale := true, showLast := false, fifo := [], inFlight := .none, droppedItems := 0,
    ignoredFrames := 0 }

/-- R192. -/
def Latch.reset : Latch :=
  { isSet := false, causes := 0, pendingCount := 0, pendingCauses := 0, unsent := false, raiseCount := 0 }

/-- R197: the boot load begins with the header (R198). -/
def Boot.reset : Boot :=
  { load := .loading, blank := none, applied := 0, clamped := 0, skipped := 0, firstSkip := none, write := none,
    phase := .header }

/-- The part right after reset, with the boot load about to begin (R197). -/
def State.reset : State :=
  { pending := [], due := [], freeCount := 0, resetLow := false, floor := resetFloorRecord, riser := .reset, clock := .reset,
    timeStep := none, roomMap := .replicate 48 none, classes := .replicate 8 .reset, rooms := .replicate 48 .reset,
    pool := .replicate 768 none, evidence := .replicate 48 .reset, orders := [], pantries := .replicate 8 .reset,
    lines := .replicate 4 .reset, drops := .replicate 60 .reset, latches := .replicate 121 .reset, unsent := [],
    flushCount := 0, discardCount := 0, restart := none, boot := .reset, bootMem := [] }

end Sys2Proof.Machine
end

