-- ==== Sys2Proof/Machine/Ops.lean ====
section
/-! DEFINITION. The named operations over State that every block uses: tables and their entries, saturating counters,
work handed from block to block, the clock's current slot, and the boot memory. -/

namespace Sys2Proof.Machine

/-! ## Tables and counters -/

/-- The table with entry `i` changed by `f`; an index outside the table changes nothing. -/
def updAt {α : Type} {n : Nat} (v : Vector α n) (i : Nat) (f : α → α) : Vector α n :=
  match v[i]? with
  | some a => v.setIfInBounds i (f a)
  | none => v

/-- A counter's sum, saturating at `limit` (spec/00_scope.md section 5). -/
def satAdd (limit a b : Nat) : Nat := min (a + b) limit

/-- A 16-bit saturating counter, one higher. -/
def bump16 (n : Nat) : Nat := satAdd 65535 n 1

/-! ## Work between blocks -/

/-- Hands work to a block: it joins the tail of the work that is due (log entry 2). -/
def State.hand (s : State) (c : Instr) : State := { s with due := s.due ++ [c] }

/-- Hands work that is already due at most once. -/
def State.handOnce (s : State) (c : Instr) : State := if c ∈ s.due then s else s.hand c

/-- The command `c` is taken: the first due work equal to it is no longer due. -/
def State.takeDue (s : State) (c : Instr) : State := { s with due := s.due.erase c }

/-- Whether a piece of work is, or brings, a boundary that the Catering Dispatcher takes. -/
def isDispatcherBoundary : Instr → Bool
  | .slotBoundary _ _ => true
  | .dispatcherSlotRun _ => true
  | .dayBoundary _ => true
  | _ => false

/-- Whether a piece of work is, or brings, a boundary that the Booking Engine takes. -/
def isBookingBoundary : Instr → Bool
  | .slotBoundary _ _ => true
  | .bookingSlotRun _ _ => true
  | .dayBoundary _ => true
  | _ => false

/-- Whether a piece of work is a boundary raised and not yet run to its end (R16 check 2). -/
def isBoundaryWork (c : Instr) : Bool := isBookingBoundary c || isDispatcherBoundary c

/-- Whether a piece of work is a day boundary. -/
def isDayBoundary : Instr → Bool
  | .dayBoundary _ => true
  | _ => false

/-- The work that is due ahead of a command: all of it when the command itself is not due. -/
def State.ahead (s : State) (c : Instr) : List Instr := s.due.takeWhile fun d => decide (d ≠ c)

/-- Work put in the place of its first equal, or at the tail when there is none. -/
def putInPlace (c : Instr) (work : List Instr) : List Instr → List Instr
  | [] => work
  | d :: ds => if d = c then work ++ ds else d :: putInPlace c work ds

/-- Work placed before the Dispatcher's next boundary, or at the tail when none is due. -/
def insertBeforeBoundary (c : Instr) : List Instr → List Instr
  | [] => [c]
  | d :: ds => if isDispatcherBoundary d then c :: d :: ds else d :: insertBeforeBoundary c ds

/-- Hands the Catering Dispatcher a notice, which it takes in its turn among the boundaries of a catch-up (R63). -/
def State.handNotice (s : State) (c : Instr) : State := { s with due := insertBeforeBoundary c s.due }

/-! ## Entries of the tables -/

def State.room (s : State) (r : Nat) : RoomEntry := s.rooms[r]?.getD RoomEntry.reset
def State.modRoom (s : State) (r : Nat) (f : RoomEntry → RoomEntry) : State := { s with rooms := updAt s.rooms r f }
def State.res (s : State) (i : Nat) : Option Reservation := s.pool[i]?.getD none
def State.setRes (s : State) (i : Nat) (r : Option Reservation) : State := { s with pool := updAt s.pool i fun _ => r }
def State.modRes (s : State) (i : Nat) (f : Reservation → Reservation) : State :=
  { s with pool := updAt s.pool i fun r => r.map f }
def State.ev (s : State) (r : Nat) : Evidence := s.evidence[r]?.getD Evidence.reset
def State.modEv (s : State) (r : Nat) (f : Evidence → Evidence) : State := { s with evidence := updAt s.evidence r f }
def State.pantry (s : State) (p : Nat) : Pantry := s.pantries[p]?.getD Pantry.reset
def State.modPantry (s : State) (p : Nat) (f : Pantry → Pantry) : State := { s with pantries := updAt s.pantries p f }
def State.line (s : State) (l : Nat) : Line := s.lines[l]?.getD Line.reset
def State.modLine (s : State) (l : Nat) (f : Line → Line) : State := { s with lines := updAt s.lines l f }
def State.dropAt (s : State) (i : Nat) : Drop := s.drops[i]?.getD Drop.reset
def State.modDropAt (s : State) (i : Nat) (f : Drop → Drop) : State := { s with drops := updAt s.drops i f }
def State.latch (s : State) (i : Nat) : Latch := s.latches[i]?.getD Latch.reset
def State.modLatch (s : State) (i : Nat) (f : Latch → Latch) : State := { s with latches := updAt s.latches i f }
def State.modRiser (s : State) (f : Riser → Riser) : State := { s with riser := f s.riser }
def State.modBoot (s : State) (f : Boot → Boot) : State := { s with boot := f s.boot }

/-- The class a room names, as it stands (R4). -/
def State.classOf (s : State) (r : Nat) : RoomClass := s.classes[(s.room r).cls]?.getD RoomClass.reset

/-! ## The clock -/

/-- The current slot; none while the clock is unset (R12). -/
def State.curSlot (s : State) : Option Nat := if s.clock.isSet then some (s.clock.minute / 5) else none

/-- Minute and seconds together, in seconds of the day (R16). -/
def secondOfDay (minute seconds : Nat) : Nat := minute * 60 + seconds

/-- The boot load is in progress (R200). -/
def State.loading (s : State) : Bool := s.boot.load = .loading

/-- A TIME step or a boundary run is in progress, so that a TIME message is refused with BUSY (R16 check 2, R186; log
entry 28). -/
def State.clockBusy (s : State) : Bool := s.timeStep.isSome || s.due.any isBoundaryWork

/-- The work of a TIME step that is still to be done: what is due ahead of the step's completion (R16). -/
def State.stepWork (s : State) : List Instr := if s.timeStep.isSome then s.ahead .timeStepComplete else []

/-- A day boundary has been raised and not yet run (R15). -/
def State.dayRaised (s : State) : Bool := s.due.any isDayBoundary

/-- A catch-up of the Booking Engine is in progress, or a day boundary has been raised and not yet run, so that server,
panel and tick-report work waits (R15, R18; log entry 31). -/
def State.catchUp (s : State) : Bool := s.stepWork.any isBookingBoundary || s.dayRaised

/-! ## The boot memory (spec/09 section 9.5) -/

/-- What an address of the boot memory reads as when nothing is listed for it: DESIGN CHOICE (log entry 18). -/
def erasedByte : Byte := 0xFF

/-- The byte at an address of the boot memory. -/
def memRead : List Host.Cell → Nat → Byte
  | [], _ => erasedByte
  | (k, b) :: m, a => if k = a then b else memRead m a

/-- One byte written; the canonical form is kept. -/
def memWrite : List Host.Cell → Nat → Byte → List Host.Cell
  | [], a, b => if b = erasedByte then [] else [(a, b)]
  | (k, v) :: m, a, b =>
    if a < k then (if b = erasedByte then (k, v) :: m else (a, b) :: (k, v) :: m)
    else if a = k then (if b = erasedByte then m else (a, b) :: m)
    else (k, v) :: memWrite m a b

/-- A run of bytes written from an address up. -/
def memWriteRun : List Host.Cell → Nat → Bytes → List Host.Cell
  | m, _, [] => m
  | m, a, b :: bs => memWriteRun (memWrite m a b) (a + 1) bs

/-- `n` bytes read from an address up. -/
def memReadRun (m : List Host.Cell) (a n : Nat) : Bytes := (List.range n).map fun i => memRead m (a + i)

/-- The canonical form: addresses strictly rising and inside the memory, no entry equal to the erased byte. -/
def memWfFrom : Nat → List Host.Cell → Bool
  | _, [] => true
  | lo, (k, b) :: m => decide (lo ≤ k) && decide (k < 8192) && decide (b ≠ erasedByte) && memWfFrom (k + 1) m

/-- The canonical form of the whole boot memory. -/
def memWf (m : List Host.Cell) : Bool := memWfFrom 0 m

/-- The first offset of the 32-byte page that holds an offset (R188). -/
def pageBase (a : Nat) : Nat := a / 32 * 32

/-- Every byte of the page at `base` replaced by free values (log entry 17). -/
def spoilPage (m : List Host.Cell) (base free : Nat) : List Host.Cell :=
  memWriteRun m base ((List.range 32).map fun i => Config.freePageByte free (base + i))

/-- The chunk of a write that the page write at hand carries: from the bytes written so far to the end of the page or
of the run (R189). -/
def Write.chunk (w : Write) : Bytes :=
  (w.run.drop w.written).take (pageBase (w.offset + w.written) + 32 - (w.offset + w.written))

end Sys2Proof.Machine
end

