-- ==== Sys2Proof/Machine/Operands.lean ====
section
/-! DEFINITION. What the operands of commands name: drops by their codes, the bound drops of a room, the drop that
serves a pantry, encoded kinds and modes. -/

namespace Sys2Proof.Machine

/-- A drop code in range: line 0..3, address 1..15 (R144). -/
def validDrop (c : DropCode) : Bool := decide (c.line ≤ 3) && decide (1 ≤ c.addr) && decide (c.addr ≤ 15)

/-- The place of a drop in the Drop Table, which is also its latch index: line × 15 + address − 1 (R191). -/
def dropIndex (c : DropCode) : Nat := c.line * 15 + c.addr - 1

/-- The drop code at a place of the Drop Table. -/
def dropCodeAt (i : Nat) : DropCode := { line := i / 15, addr := i % 15 + 1 }

/-- A drop's entry; an invalid code reads as an entry in its reset state. -/
def State.drop (s : State) (c : DropCode) : Drop := if validDrop c then s.dropAt (dropIndex c) else Drop.reset

/-- A drop's entry changed; an invalid code changes nothing. -/
def State.modDrop (s : State) (c : DropCode) (f : Drop → Drop) : State :=
  if validDrop c then s.modDropAt (dropIndex c) f else s

/-- All drop codes in ascending order, line first and then address. -/
def allDrops : List DropCode := (List.range 60).map dropCodeAt

/-- The drop codes of one line, ascending. -/
def lineDrops (l : Nat) : List DropCode := (List.range 15).map fun a => { line := l, addr := a + 1 }

/-- The panels bound to a room, in ascending drop code order (R5). -/
def State.boundPanels (s : State) (r : Nat) : List DropCode :=
  allDrops.filter fun c => (s.drop c).kind = .roomPanel && (s.drop c).room = some r

/-- The sensors bound to a room; a loaded table gives at most one (R6). -/
def State.boundSensors (s : State) (r : Nat) : List DropCode :=
  allDrops.filter fun c => (s.drop c).kind = .roomSensor && (s.drop c).room = some r

/-- The room's bound sensor, if it has one (R5). -/
def State.boundSensor (s : State) (r : Nat) : Option DropCode := (s.boundSensors r).head?

/-- The drop that serves a pantry: the one the Pantry config names, when its Drop Table entry is configured PANTRY with
this pantry's index (R88). -/
def State.servingDrop (s : State) (p : Nat) : Option DropCode :=
  match (s.pantry p).drop with
  | some c => if (s.drop c).kind = .pantry && (s.drop c).pantry = some p then some c else none
  | none => none

/-- The pantry a drop serves (R144). -/
def State.servedPantry (s : State) (c : DropCode) : Option Nat :=
  match (s.drop c).kind, (s.drop c).pantry with
  | .pantry, some p => if s.servingDrop p = some c then some p else none
  | _, _ => none

/-- A configured kind from its encoding (section 11.1.1). -/
def dropKindOf : Nat → Option DropKind
  | 0 => some .unused
  | 1 => some .roomPanel
  | 2 => some .roomSensor
  | 3 => some .pantry
  | _ => none

/-- A drop mode from its encoding (section 11.1.1). -/
def dropModeOf : Nat → Option DropMode
  | 0 => some .isolated
  | 1 => some .normal
  | 2 => some .excluded
  | 3 => some .shadow
  | _ => none

/-- A schedule entry from its encoding; none when it is none of the three forms. Address 0 is EMPTY (R121). -/
def phaseOf (n : Nat) : Option Phase :=
  if n = 0 ∨ n = 0x20 then some .empty
  else if n = 0x10 then some .probe
  else if n ≤ 15 then some (.address n)
  else none

/-- The day list that a request names; none for any other value (R45, R48). -/
def dayOf : Nat → Option Day
  | 0 => some .today
  | 1 => some .next
  | _ => none

/-- The encoded ranges of a reference: its day list (R203, log entry 27). -/
def refEncoded : Ref → Bool
  | .index _ => true
  | .serverId _ day => decide (day ≤ 1)

/-- A class entry from the contents of a LOAD, when every field lies in its range, A is not in 1..5 and T_off is below
T_on (R3). -/
def roomClassOf (f : RoomClassLoad) : Option RoomClass :=
  if (1 ≤ f.grace ∧ f.grace ≤ 6) ∧ f.turnaround ≤ 6 ∧ f.clean ≤ 6 ∧ (1 ≤ f.walkupMax ∧ f.walkupMax ≤ 12) ∧
      f.presence ≤ 1 ∧ f.autoEnd ≤ 255 ∧ ¬ (1 ≤ f.autoEnd ∧ f.autoEnd ≤ 5) ∧ f.weight ≤ 255 ∧
      (1 ≤ f.decay ∧ f.decay ≤ 255) ∧ f.bump ≤ 4095 ∧ (1 ≤ f.tOn ∧ f.tOn ≤ 65535) ∧ f.tOff ≤ 65534 ∧ f.tOff < f.tOn ∧
      f.closedAtStart ≤ 1 then
    some { grace := f.grace, turnaround := f.turnaround, clean := f.clean, walkupMax := f.walkupMax,
           presence := f.presence = 1, autoEnd := f.autoEnd, weight := f.weight, decay := f.decay, bump := f.bump,
           tOn := f.tOn, tOff := f.tOff, closedAtStart := f.closedAtStart = 1 }
  else none

/-- A floor record that a LOAD may bring (R167). -/
def floorRecordOk (r : FloorRecord) : Bool :=
  decide (r.building ≤ 15) && decide (r.floor ≤ 63) && decide (r.windowLow ≤ 63) && decide (r.windowHigh ≤ 63) &&
  decide (1 ≤ r.localWeight) && decide (r.localWeight ≤ 15) && decide (1 ≤ r.onwardWeight) &&
  decide (r.onwardWeight ≤ 15) && decide (10 ≤ r.offlineTimeout) && decide (r.offlineTimeout ≤ 600) &&
  decide (r.offlineTimeout % 10 = 0) && decide (0x0600 ≤ r.riserType) && decide (r.riserType ≤ 0xFFFF)

/-- Marks one drop's display stale, if it is a room panel (R159). -/
def Drop.marked (d : Drop) : Drop := if d.kind = .roomPanel then { d with stale := true } else d

/-- Marks the displays of a room's bound panels stale (R159). -/
def State.markRoom (s : State) (r : Nat) : State :=
  { s with drops := s.drops.map fun d => if d.room = some r then d.marked else d }

/-- Marks every room panel's display stale (R159). -/
def State.markAll (s : State) : State := { s with drops := s.drops.map Drop.marked }

end Sys2Proof.Machine
end

