-- ==== Sys2Proof/Machine/Flags.lean ====
section
/-! DEFINITION. The event latches and their causes (spec/09 section 9.7), and the entries of the local transmit queue
that replies, EVENTs and UPFRAMEs take (spec/08 section 8.4). -/

namespace Sys2Proof.Machine

/-- The causes (R191). -/
inductive Cause where
  | presence | kindMismatch | running | powerFault | pantryFault | synced | closeDone | sensorStale
  | bootDone | bootBlank | bootPartial | offline | online | dayFlush | dirtyDiscarded
  deriving DecidableEq, Repr

/-- A cause's bit in its latch's cause set: the order of the latch table, from bit 0 (section 11.1.1). -/
def Cause.bit : Cause → BitVec 8
  | .presence => 1
  | .kindMismatch => 2
  | .running => 1
  | .powerFault => 2
  | .pantryFault => 1
  | .synced => 2
  | .closeDone => 1
  | .sensorStale => 2
  | .bootDone => 1
  | .bootBlank => 2
  | .bootPartial => 4
  | .offline => 8
  | .online => 16
  | .dayFlush => 32
  | .dirtyDiscarded => 64

/-- The latch indices (R191). -/
def dropLatch (c : DropCode) : Nat := dropIndex c
def lineLatch (l : Nat) : Nat := 60 + l
def pantryLatch (p : Nat) : Nat := 64 + p
def roomLatch (r : Nat) : Nat := 72 + r
def floorLatch : Nat := 120

/-- The entries of the local transmit queue that are spoken for: its messages, its reservations (R168), and an entry that
waits for its grant (R173, R174). -/
def Riser.used (r : Riser) : Nat := r.localQueue.length + r.reservations.length + r.freed.toNat

/-- The free entries of the local transmit queue: those of its 32 that are not spoken for (R168, R173). -/
def State.freeEntries (s : State) : Nat := 32 - s.riser.used

/-- A message joins the tail of the local transmit queue. -/
def State.pushLocal (s : State) (m : UpMsg) : State :=
  s.modRiser fun r => { r with localQueue := r.localQueue ++ [m] }

/-- Composes a latch's EVENT as the latch stands and places it; the floor latch's counts go with the causes that carry
them and return to 0 (R194). -/
def State.composeEvent (s : State) (i : Nat) : State :=
  let l := s.latch i
  let hasFlush := i = floorLatch ∧ l.causes &&& Cause.bit .dayFlush ≠ 0
  let hasDiscard := i = floorLatch ∧ l.causes &&& Cause.bit .dirtyDiscarded ≠ 0
  let m := UpMsg.event s.floor.building s.floor.floor i l.causes l.raiseCount
    (if hasFlush then some s.flushCount else none) (if hasDiscard then some s.discardCount else none)
  { s.pushLocal m with
    flushCount := if hasFlush then 0 else s.flushCount
    discardCount := if hasDiscard then 0 else s.discardCount }

/-- Places the EVENT of a latch: at once in a free entry, else the latch joins the unsent list (R194). -/
def State.placeEvent (s : State) (i : Nat) : State :=
  if 0 < s.freeEntries then s.composeEvent i
  else { s.modLatch i (fun l => { l with unsent := true }) with unsent := s.unsent ++ [i] }

/-- Places the EVENT at the head of the unsent list in an entry granted to the event claim (R194). -/
def State.placeUnsent (s : State) : State :=
  match s.unsent with
  | [] => s
  | i :: rest => ({ s.modLatch i (fun l => { l with unsent := false }) with unsent := rest }).composeEvent i

/-- A cause is raised on a latch (R193); an index that is no latch's changes nothing. -/
def State.raise (s : State) (i : Nat) (c : Cause) : State :=
  if floorLatch < i then s
  else if (s.latch i).isSet then
    s.modLatch i fun l =>
      { l with pendingCount := satAdd 15 l.pendingCount 1, pendingCauses := l.pendingCauses ||| c.bit }
  else
    (s.modLatch i fun l =>
      { l with isSet := true, causes := c.bit, pendingCount := 0, pendingCauses := 0, raiseCount := 1 }).placeEvent i

/-- DAY_FLUSH with the count of dirty records lost (R41, R194). -/
def State.raiseDayFlush (s : State) (n : Nat) : State :=
  { s with flushCount := satAdd 65535 s.flushCount n }.raise floorLatch .dayFlush

/-- DIRTY_DISCARDED with its count; not raised when the count is 0 (R37, R194). -/
def State.raiseDiscarded (s : State) (n : Nat) : State :=
  if n = 0 then s else { s with discardCount := satAdd 65535 s.discardCount n }.raise floorLatch .dirtyDiscarded

/-- What a CLEAR leaves of a set latch whose EVENT is not unsent (R195): cleared, or reissued with its pending causes
and a new EVENT placed. -/
def State.clearLatch (s : State) (i : Nat) : State :=
  let l := s.latch i
  if l.pendingCount = 0 then s.modLatch i fun l => { l with isSet := false, causes := 0 }
  else
    (s.modLatch i fun l =>
      { l with causes := l.pendingCauses, raiseCount := l.pendingCount, pendingCount := 0, pendingCauses := 0 }).placeEvent i

/-! ## Replies -/

/-- The reservations of a kind and tag that work in progress holds: a TIME step's and a write's (R172). -/
def State.owed (s : State) (k : MsgKind) (tag : Tag) : Nat :=
  (if k = .time ∧ s.timeStep.map TimeStep.tag = some tag then 1 else 0) +
  (if k = .bootWrite ∧ s.boot.write.map Write.tag = some tag then 1 else 0)

/-- Whether a request has the reservation that its routing took (R172). -/
def State.hasReservation (s : State) (k : MsgKind) (tag : Tag) : Bool :=
  decide (s.owed k tag < s.riser.reservations.count (k, tag))

/-- The reservation of a request: the one its routing took, or a free entry taken now (log entry 3). -/
def State.reserve (s : State) (k : MsgKind) (tag : Tag) : State :=
  if s.hasReservation k tag then s
  else s.modRiser fun r => { r with reservations := r.reservations ++ [(k, tag)] }

/-- Whether a request has or can have its reservation (R172). -/
def State.canReply (s : State) (k : MsgKind) (tag : Tag) : Bool :=
  s.hasReservation k tag || decide (0 < s.freeEntries)

/-- The reply is placed: its reservation becomes the message, at the tail, with this part's source as it now stands
(R168, R171). -/
def State.reply (s : State) (k : MsgKind) (tag : Tag) (code : Code) (body : Body) : State :=
  s.modRiser fun r =>
    { r with reservations := r.reservations.erase (k, tag)
             localQueue := r.localQueue ++ [.reply s.floor.building s.floor.floor tag k code body] }

/-- An UPFRAME takes a free entry, or one whose grant has not been taken yet, which the waiter then loses; with neither it
is discarded and counted (R154, R173). -/
def State.placeUpframe (s : State) (c : DropCode) (kind : Byte) (body : Bytes) : State :=
  let m := UpMsg.upframe s.floor.building s.floor.floor c kind body
  if s.riser.freed then (s.modRiser fun r => { r with freed := false }).pushLocal m
  else if 0 < s.freeEntries then s.pushLocal m
  else s.modRiser fun r => { r with upframeDrops := bump16 r.upframeDrops }

end Sys2Proof.Machine
end

