-- ==== Sys2Proof/Machine/Formats.lean ====
section
/-! DEFINITION. The byte layouts of spec/11_message_and_frame_formats.md: reading riser messages, LOAD records and up
frames, and writing down frames and the messages that go up. Every multi-byte field is high byte first. -/

namespace Sys2Proof.Machine

/-! ## Fields -/

def u8 (n : Nat) : Bytes := [BitVec.ofNat 8 n]
def u16 (n : Nat) : Bytes := [BitVec.ofNat 8 (n / 256), BitVec.ofNat 8 n]
def u32 (n : Nat) : Bytes := u16 (n / 65536) ++ u16 (n % 65536)
def flag (b : Bool) : Bytes := u8 (if b then 1 else 0)

/-- Bits gathered into one byte, bit 0 first. -/
def bits : List Bool → Nat
  | [] => 0
  | b :: bs => (if b then 1 else 0) + 2 * bits bs

/-- A two-byte field read. -/
def rd16 (a b : Byte) : Nat := a.toNat * 256 + b.toNat

/-- A yes-or-no byte; none for any other value. -/
def rdFlag (b : Byte) : Option Bool := if b = 0 then some false else if b = 1 then some true else none

/-- The line check byte: CRC-8 with polynomial x^8 + x^2 + x + 1 and initial value 0xFF, over the bytes given (R137). -/
def crcByte (crc : Byte) (n : Nat) : Byte :=
  match n with
  | 0 => crc
  | n + 1 => crcByte (if crc.msb then (crc <<< 1) ^^^ 0x07 else crc <<< 1) n

def checkByte (bs : Bytes) : Byte := bs.foldl (fun crc b => crcByte (crc ^^^ b) 8) 0xFF

/-- A drop byte: bits 5..4 line, bits 3..0 address (section 11.1). -/
def dropOfByte (b : Byte) : DropCode := { line := (b.toNat / 16) % 4, addr := b.toNat % 16 }
def dropByte (c : DropCode) : Nat := c.line * 16 + c.addr

/-- A room code in the place layout: bits 15..12 building, 11..6 floor, 5..0 room. -/
def roomOfPlace (n : Nat) : RoomCode := { building := n / 4096, floor := n / 64 % 64, room := n % 64 }
def placeOfRoom (c : RoomCode) : Nat := c.building * 4096 + c.floor * 64 + c.room

/-! ## Riser messages -/

/-- A kind from its code (section 11.1). -/
def kindOfCode : Nat → Option MsgKind
  | 0x01 => some .book
  | 0x02 => some .alter
  | 0x03 => some .withdraw
  | 0x04 => some .content
  | 0x05 => some .service
  | 0x06 => some .time
  | 0x07 => some .load
  | 0x08 => some .read
  | 0x09 => some .listDirty
  | 0x0A => some .markClean
  | 0x0B => some .control
  | 0x0C => some .clear
  | 0x0D => some .bootWrite
  | 0x0E => some .restart
  | 0x81 => some .reply
  | 0x82 => some .event
  | 0x83 => some .upframe
  | _ => none

/-- A kind that goes up. -/
def MsgKind.upward : MsgKind → Bool
  | .reply | .event | .upframe => true
  | _ => false

/-- A message's destination (section 8.1). -/
inductive Dest where
  | broadcast
  | floor (building floor : Nat)
  | room (code : RoomCode)
  | drop (building floor : Nat) (code : DropCode)
  deriving DecidableEq, Repr

/-- A message whose header parses. -/
structure Msg where
  dest : Dest
  kind : MsgKind
  tag : Tag
  body : Bytes
  deriving DecidableEq, Repr

/-- A destination from its form and its place and drop fields; none for a form above 3. -/
def destOf (form place : Nat) (drop : Byte) : Option Dest :=
  let c := roomOfPlace place
  match form with
  | 0 => some .broadcast
  | 1 => some (.floor c.building c.floor)
  | 2 => some (.room c)
  | 3 => some (.drop c.building c.floor (dropOfByte drop))
  | _ => none

/-- The header check (R203): none when the header is malformed. Bytes after the body are padding. -/
def parseMessage : Bytes → Option Msg
  | form :: kind :: t1 :: t0 :: p1 :: p0 :: drop :: l1 :: l0 :: rest =>
    match destOf form.toNat (rd16 p1 p0) drop, kindOfCode kind.toNat with
    | some dest, some k =>
      if rd16 l1 l0 ≤ rest.length then
        some { dest := dest, kind := k, tag := t1 ++ t0, body := rest.take (rd16 l1 l0) }
      else none
    | _, _ => none
  | _ => none

/-! ## Request bodies -/

/-- Order lines of a BOOK: item code 0..4095 and quantity 1..63. -/
def parseLines : Nat → Bytes → Option (List OrderLine × Bytes)
  | 0, bs => some ([], bs)
  | n + 1, i1 :: i0 :: q :: bs =>
    if rd16 i1 i0 ≤ 4095 ∧ 1 ≤ q.toNat ∧ q.toNat ≤ 63 then
      match parseLines n bs with
      | some (ls, rest) => some ({ item := rd16 i1 i0, qty := q.toNat } :: ls, rest)
      | none => none
    else none
  | _ + 1, _ => none

/-- The orders of a BOOK. -/
def parseOrders : Nat → Bytes → Option (List OrderReq)
  | 0, [] => some []
  | 0, _ => none
  | n + 1, i1 :: i0 :: p :: d1 :: d0 :: c1 :: c0 :: k :: bs =>
    if p.toNat ≤ 7 ∧ 1 ≤ k.toNat ∧ k.toNat ≤ 8 then
      match parseLines k.toNat bs with
      | some (ls, rest) =>
        match parseOrders n rest with
        | some os =>
          some ({ id := i1 ++ i0, pantry := p.toNat, deliverBy := rd16 d1 d0, cutoff := rd16 c1 c0, lines := ls } :: os)
        | none => none
      | none => none
    else none
  | _ + 1, _ => none

def parseBook : Bytes → Option BookReq
  | i3 :: i2 :: i1 :: i0 :: day :: s1 :: s0 :: e1 :: e0 :: tp :: t1 :: t0 :: n :: rest =>
    match rdFlag tp, parseOrders n.toNat rest with
    | some present, some os =>
      if day.toNat ≤ 1 ∧ n.toNat ≤ 2 then
        some { serverId := i3 ++ i2 ++ i1 ++ i0, day := day.toNat, start := rd16 s1 s0, stop := rd16 e1 e0,
               organiser := if present then some (t1 ++ t0) else none, orders := os }
      else none
    | _, _ => none
  | _ => none

/-- A reference, and the bytes after it (R48). -/
def parseRef : Bytes → Option (Ref × Bytes)
  | form :: rest =>
    if form = 0 then
      match rest with
      | i1 :: i0 :: bs => some (.index (rd16 i1 i0), bs)
      | _ => none
    else if form = 1 then
      match rest with
      | i3 :: i2 :: i1 :: i0 :: day :: bs =>
        if day.toNat ≤ 1 then some (.serverId (i3 ++ i2 ++ i1 ++ i0) day.toNat, bs) else none
      | _ => none
    else none
  | [] => none

def parseAlter (b : Bytes) : Option AlterReq :=
  match parseRef b with
  | some (ref, [flags, s1, s0, e1, e0]) =>
    some { ref := ref
           newStart := if flags.getLsbD 0 then some (rd16 s1 s0) else none
           newEnd := if flags.getLsbD 1 then some (rd16 e1 e0) else none }
  | _ => none

def parseWithdraw (b : Bytes) : Option Ref :=
  match parseRef b with
  | some (ref, []) => some ref
  | _ => none

/-- A LOAD's body, or a record's body in the boot image: the table, the entry and the contents. -/
inductive LoadReq where
  | floorRecord (entry : Nat) (r : FloorRecord)
  | roomMap (entry : Nat) (code : Option RoomCode)
  | roomClass (entry : Nat) (fields : RoomClassLoad)
  | roomTable (entry : Nat) (cls : Nat)
  | dropTable (drop : DropCode) (fields : DropLoad)
  | lineConfig (line : Nat) (fields : LineLoad)
  | pantryConfig (pantry : Nat) (fields : PantryLoad)
  deriving DecidableEq, Repr

/-- A byte with 0xFF as none. -/
def rdOpt (b : Byte) : Option Nat := if b = 0xFF then none else some b.toNat

/-- The body of a LOAD or of a boot record (section 11.1.1); none when its table, length or encoded ranges do not fit. -/
def parseLoad : Bytes → Option LoadReq
  | table :: entry :: fields =>
    let n := entry.toNat
    match table.toNat, fields with
    | 0, [b, f, wl, wh, lw, ow, t1, t0, y1, y0] =>
      some (.floorRecord n
        { building := b.toNat, floor := f.toNat, windowLow := wl.toNat, windowHigh := wh.toNat,
          localWeight := lw.toNat, onwardWeight := ow.toNat, offlineTimeout := rd16 t1 t0, riserType := rd16 y1 y0 })
    | 1, [present, c1, c0] =>
      match rdFlag present with
      | some p => some (.roomMap n (if p then some (roomOfPlace (rd16 c1 c0)) else none))
      | none => none
    | 2, [g, ta, cl, m, pr, a, w, d, b1, b0, n1, n0, f1, f0, cs] =>
      some (.roomClass n
        { grace := g.toNat, turnaround := ta.toNat, clean := cl.toNat, walkupMax := m.toNat, presence := pr.toNat,
          autoEnd := a.toNat, weight := w.toNat, decay := d.toNat, bump := rd16 b1 b0, tOn := rd16 n1 n0,
          tOff := rd16 f1 f0, closedAtStart := cs.toNat })
    | 3, [c] => some (.roomTable n c.toNat)
    | 4, [k, r, p] => some (.dropTable (dropOfByte entry) { kind := k.toNat, room := rdOpt r, pantry := rdOpt p })
    | 5, code :: power :: phases =>
      match rdFlag power with
      | some on =>
        if phases.length = 32 then
          some (.lineConfig n { timeoutCode := code.toNat, powerAtStart := on, phases := phases.map BitVec.toNat })
        else none
      | none => none
    | 6, [d, lead, code] =>
      some (.pantryConfig n
        { drop := if d = 0xFF then none else some (dropOfByte d), lead := lead.toNat, timeoutCode := code.toNat })
    | _, _ => none
  | _ => none

def loadInstr (tag : Tag) : LoadReq → Instr
  | .floorRecord n r => .loadFloorRecord tag n r
  | .roomMap n c => .loadRoomMap tag n c
  | .roomClass n f => .loadRoomClass tag n f
  | .roomTable n c => .loadRoomTable tag n c
  | .dropTable d f => .loadDropTable tag d f
  | .lineConfig n f => .loadLineConfig tag n f
  | .pantryConfig n f => .loadPantryConfig tag n f

/-- A READ (section 11.4): the target, whether it clears, and the index. -/
def parseRead (tag : Tag) : Bytes → Option Instr
  | [target, rac, i1, i0] =>
    match rdFlag rac with
    | some c =>
      let n := rd16 i1 i0
      match target.toNat with
      | 0 => some (.readFloorRecord tag c)
      | 1 => some (.readRoomMap tag c n)
      | 2 => some (.readRoomClass tag c n)
      | 3 => some (.readRoomTable tag c n)
      | 4 => some (.readPantryConfig tag c n)
      | 5 => some (.readReservation tag c n)
      | 6 => some (.readOrder tag c (i1 ++ i0))
      | 7 => some (.readEvidence tag c n)
      | 8 => some (.readDrop tag c (dropOfByte i0))
      | 9 => some (.readLine tag c n)
      | 10 => some (.readPantryLink tag c n)
      | 11 => some (.readRiserPort tag c)
      | 12 => some (.readFloorClock tag c)
      | 13 => some (.readEventLatch tag c n)
      | 14 => some (.readEventSummary tag c)
      | 15 => some (.readBootStatus tag c)
      | _ => none
    | none => none
  | _ => none

/-- A CONTROL: DROP_MODE carries its mode byte, every other operation none (section 11.1.1). -/
def parseControl (tag : Tag) : Bytes → Option Instr
  | [op, x] =>
    match op.toNat with
    | 0 => some (.linePowerOn tag x.toNat)
    | 1 => some (.linePowerOff tag x.toNat)
    | 2 => some (.lineBreak tag x.toNat)
    | 4 => some (.roomClose tag x.toNat)
    | 5 => some (.roomOpen tag x.toNat)
    | 6 => some (.pantryResync tag x.toNat)
    | _ => none
  | [op, x, mode] => if op = 3 ∧ mode.toNat ≤ 3 then some (.dropMode tag (dropOfByte x) mode.toNat) else none
  | _ => none

/-- What a request that reaches a block is addressed to. -/
inductive Target where
  | floor
  | room (index : Nat)
  | drop (code : DropCode)
  deriving DecidableEq, Repr

/-- The command that a request's form, kind and body give (R171, section 11.1.1); none when the form does not take the kind
or the body has not its length or its encoded ranges (R203, log entry 6). LIST_DIRTY, MARK_CLEAN and CLEAR have the body
of log entry 40, and a RESTART has no layout whose form could fail. -/
def commandOf (target : Target) (kind : MsgKind) (tag : Tag) (body : Bytes) : Option Instr :=
  match target, kind with
  | .floor, .time =>
    match body with
    | [d1, d0, m1, m0, sec] => some (.time tag (rd16 d1 d0) (rd16 m1 m0) sec.toNat)
    | _ => none
  | .floor, .alter => (parseAlter body).map (.alter tag none)
  | .floor, .withdraw => (parseWithdraw body).map (.withdraw tag none)
  | .floor, .load => (parseLoad body).map (loadInstr tag)
  | .floor, .read => parseRead tag body
  | .floor, .listDirty =>
    match body with
    | [c1, c0] => some (.listDirty tag (rd16 c1 c0))
    | _ => none
  | .floor, .markClean =>
    match body with
    | [i1, i0, v] => some (.markClean tag (rd16 i1 i0) v)
    | _ => none
  | .floor, .control => parseControl tag body
  | .floor, .clear =>
    match body with
    | [l] => some (.clear tag l.toNat)
    | _ => none
  | .floor, .bootWrite =>
    match body with
    | o1 :: o0 :: n :: run =>
      if run.length = n.toNat ∧ n.toNat ≤ 64 then some (.bootWrite tag (rd16 o1 o0) run) else none
    | _ => none
  | .floor, .restart => some (.restart tag)
  | .room r, .book => (parseBook body).map (.book tag r)
  | .room r, .alter => (parseAlter body).map (.alter tag (some r))
  | .room r, .withdraw => (parseWithdraw body).map (.withdraw tag (some r))
  | .room r, .content =>
    match body with
    | state :: text => if text.length ≤ 239 then some (.contentRoom tag r state text) else none
    | [] => none
  | .drop c, .content =>
    match body with
    | state :: text => if text.length ≤ 239 then some (.contentDrop tag c state text) else none
    | [] => none
  | .drop c, .service => if body.length ≤ 240 then some (.service tag c body) else none
  | _, _ => none

/-- A request whose body has not the length or the encoded ranges of its kind: it goes to its block as a command of its form
and kind whose operands lie outside those ranges, which the block answers BAD_MESSAGE in its turn (R183, R203; DESIGN CHOICE,
log entry 6). -/
def outOfForm (target : Target) (kind : MsgKind) (tag : Tag) : Instr :=
  let noDay : Ref := .serverId 0 2
  let alter : AlterReq := { ref := noDay, newStart := none, newEnd := none }
  match target, kind with
  | .floor, .time => .time tag 0 1440 0
  | .floor, .alter => .alter tag none alter
  | .floor, .withdraw => .withdraw tag none noDay
  | .floor, .load => .loadLineConfig tag 0 { timeoutCode := 0, powerAtStart := false, phases := [] }
  | .floor, .listDirty => .listDirty tag 65536
  | .floor, .markClean => .markClean tag 65536 0
  | .floor, .control => .pantryResync tag 8
  | .floor, .clear => .clear tag 256
  | .floor, .bootWrite => .bootWrite tag 0 (List.replicate 65 0)
  | .floor, _ => .readPantryConfig tag false 8
  | .room r, .alter => .alter tag (some r) alter
  | .room r, .withdraw => .withdraw tag (some r) noDay
  | .room r, .content => .contentRoom tag r 0 (List.replicate 240 0)
  | .room r, _ => .book tag r { serverId := 0, day := 2, start := 0, stop := 0, organiser := none, orders := [] }
  | .drop c, .content => .contentDrop tag c 0 (List.replicate 240 0)
  | .drop c, _ => .service tag c (List.replicate 241 0)

/-! ## Line frames -/

/-- An up frame as parsed (section 11.3). -/
inductive UpFrame where
  | ident (kind : DropKind)
  | idle
  | wait
  | key (request : PanelRequest)
  | walkup (n : Nat)
  | entry (isOpen : Bool)
  | sample (level : Nat)
  | pantryStatus (status : PantryStatus)
  | serviceAnswer (body : Bytes)
  deriving DecidableEq, Repr

/-- A PANTRY_STATUS body: flags that qualify an absent field make it unparsable (R204). -/
def parseStatus : Bytes → Option PantryStatus
  | [limit, flags, seq, o1, o0, reason] =>
    if (flags.getLsbD 1 && !flags.getLsbD 0) || (flags.getLsbD 4 && !flags.getLsbD 3) then none
    else
      some { limit := limit
             seq := if flags.getLsbD 0 then some seq else none
             nack := flags.getLsbD 1
             resyncAck := flags.getLsbD 2
             report := if flags.getLsbD 3 then
                 some { order := o1 ++ o0, refuse := if flags.getLsbD 4 then some reason else none }
               else none }
  | _ => none

/-- The parse stage over the kind byte and the body (R204). -/
def parseUpBody (kind : Byte) (body : Bytes) : Option UpFrame :=
  match kind.toNat, body with
  | 0x81, [k] =>
    match k.toNat with
    | 1 => some (.ident .roomPanel)
    | 2 => some (.ident .roomSensor)
    | 3 => some (.ident .pantry)
    | _ => none
  | 0x82, [] => some .idle
  | 0x83, [] => some .wait
  | 0x84, [k] =>
    match k.toNat with
    | 0 => some (.key .checkIn)
    | 1 => some (.key .finish)
    | 2 => some (.key .extend)
    | _ => none
  | 0x85, [n] => some (.walkup n.toNat)
  | 0x86, [c] => (rdFlag c).map .entry
  | 0x87, [l] => some (.sample l.toNat)
  | 0x88, b => (parseStatus b).map .pantryStatus
  | 0x89, b => if b.length ≤ 240 then some (.serviceAnswer b) else none
  | _, _ => none

/-- An up frame cut into its address byte, kind byte, body and check byte; none when the bytes do not end where the
length field says. -/
def cutFrame : Bytes → Option (Byte × Byte × Bytes × Byte)
  | a :: k :: l :: rest =>
    match rest.drop l.toNat with
    | [c] => some (a, k, rest.take l.toNat, c)
    | _ => none
  | _ => none

/-! ## Down frames (section 11.3) -/

def optFlag {α : Type} (o : Option α) : Bytes := flag o.isSome

/-- The taken field: a presence byte and an order ID. -/
def takenField (t : Option OrderId) : Bytes := optFlag t ++ u16 ((t.map BitVec.toNat).getD 0)

def PanelRequest.code : PanelRequest → Nat
  | .checkIn => 0
  | .finish => 1
  | .extend => 2
  | .walkup => 3

def Reason.code : Reason → Nat
  | .noTime => 1
  | .roomClosed => 2
  | .notYet => 3
  | .noMeeting => 4
  | .tooLate => 5
  | .nextTooSoon => 6
  | .inUse => 7
  | .bookedNow => 8
  | .turnaround => 9
  | .roomListFull => 10
  | .poolFull => 11

def StateCode.code : StateCode → Nat
  | .noRoom => 0
  | .free => 1
  | .freeSoon => 2
  | .due => 3
  | .dueLast => 4
  | .inUse => 5
  | .turnaround => 6
  | .closing => 7
  | .closed => 8
  | .noTime => 9

def Ring.code : Ring → Nat
  | .off => 0
  | .green => 1
  | .amber => 2
  | .red => 3

/-- The eight bytes of a display record: the offline flag and the catering fault are bits 6 and 7 of the blink byte. -/
def Display.bytes (d : Display) : Bytes :=
  u8 d.code.code ++ u8 d.ring.code ++ u8 (bits [d.blink, false, false, false, false, false, d.offline, d.cateringFault])
    ++ u16 (d.minutes.getD 0xFFFF) ++ optFlag d.organiser ++ u16 ((d.organiser.map BitVec.toNat).getD 0)

def linesBytes (ls : List OrderLine) : Bytes :=
  u8 ls.length ++ ls.flatMap fun l => u16 l.item ++ u8 l.qty

def Answer.bytes (a : Answer) : Bytes :=
  match a.result with
  | .granted s e => u8 a.request.code ++ u8 0 ++ u16 s ++ u16 e ++ u8 0
  | .refused r => u8 a.request.code ++ u8 1 ++ u16 0 ++ u16 0 ++ u8 r.code

/-- A down frame's kind byte and body. -/
def DownFrame.parts : DownFrame → Nat × Bytes
  | .probe => (0x01, [])
  | .poll none => (0x02, [])
  | .poll (some t) => (0x02, takenField t)
  | .answer a => (0x03, a.bytes)
  | .show d => (0x04, d.bytes)
  | .content state text => (0x05, state :: text)
  | .service body => (0x06, body)
  | .order t seq f =>
    (0x07, takenField t ++ u16 f.id.toNat ++ [seq] ++ u16 ((f.room.map placeOfRoom).getD 0xFFFF) ++ u8 f.roomIndex ++
      u16 f.deliverBy ++ flag f.late ++ optFlag f.organiser ++ u16 ((f.organiser.map BitVec.toNat).getD 0) ++
      linesBytes f.lines)
  | .cancel t id seq => (0x08, takenField t ++ u16 id.toNat ++ [seq])
  | .resync t => (0x09, takenField t)
  | .freed t .order seq n => (0x07, takenField t ++ u16 (Config.freeOrderId n).toNat ++ [seq] ++ Config.freeOrderTail n)
  | .freed t .cancel seq n => (0x08, takenField t ++ u16 (Config.freeOrderId n).toNat ++ [seq])

/-- A down frame's bytes to a drop's address, check byte last. -/
def DownFrame.bytes (f : DownFrame) (addr : Nat) : Bytes :=
  let head := u8 addr ++ u8 f.parts.1 ++ u8 f.parts.2.length ++ f.parts.2
  head ++ [checkByte head]

/-! ## READ layouts (section 11.4) -/

def LineState.code : LineState → Nat
  | .off => 0
  | .settling => 1
  | .breaking => 2
  | .running => 3
  | .fault => 4

def Phase.code : Phase → Nat
  | .address a => a
  | .probe => 0x10
  | .empty => 0

def Day.code : Day → Nat
  | .today => 0
  | .next => 1
  | .past => 2

def ResState.code : ResState → Nat
  | .booked => 0
  | .due => 1
  | .inUse => 2
  | .released => 3
  | .ended => 4
  | .cancelled => 5

def EndReason.code : EndReason → Nat
  | .normalEnd => 0
  | .endEarly => 1
  | .autoEnd => 2
  | .endUnused => 3
  | .noShow => 4
  | .withdrawn => 5
  | .roomClosed => 6

def OrderState.code : OrderState → Nat
  | .held => 0
  | .queued => 1
  | .sent => 2
  | .accepted => 3
  | .cancelPending => 4
  | .delivered => 5
  | .cancelled => 6
  | .refused => 7
  | .wasted => 8
  | .failed => 9
  | .expired => 10

def verdictCode : Verdict → Nat
  | .vacant => 0
  | .occupied => 1
  | .unknown => 2
  | .noSensor => 3

def Service.code : Service → Nat
  | .opened => 0
  | .closing => 1
  | .closed => 2

def DropKind.code : DropKind → Nat
  | .unused => 0
  | .roomPanel => 1
  | .roomSensor => 2
  | .pantry => 3

def DropMode.code : DropMode → Nat
  | .isolated => 0
  | .normal => 1
  | .excluded => 2
  | .shadow => 3

def InFlight.code : InFlight → Nat
  | .none => 0
  | .answer => 1
  | .show => 2
  | .content => 3
  | .service => 4

def LinkState.code : LinkState → Nat
  | .down => 0
  | .syncing => 1
  | .up => 2
  | .faulted => 3

def LoadState.code : LoadState → Nat
  | .loading => 0
  | .done => 1
  | .partly => 2
  | .blank => 3

def BlankReason.code : BlankReason → Nat
  | .badSignature => 1
  | .badLength => 2
  | .noMemory => 3

def SkipCause.code : SkipCause → Nat
  | .badTable => 0
  | .badRecord => 1
  | .truncated => 2
  | .noFloorRecord => 3
  | .memoryFault => 4

def StepKind.code : StepKind → Nat
  | .firstSet => 0
  | .forward => 1
  | .backward => 2
  | .nextDay => 3
  | .flush => 4

/-- A reply code's byte: its place in the list of section 11.2. -/
def Code.byte : Code → Nat
  | .ok => 0x00
  | .accepted => 0x01
  | .badMessage => 0x02
  | .badTable => 0x03
  | .badState => 0x04
  | .badWindow => 0x05
  | .noTime => 0x06
  | .past => 0x07
  | .roomClosed => 0x08
  | .duplicateId => 0x09
  | .conflict => 0x0A
  | .roomListFull => 0x0B
  | .poolFull => 0x0C
  | .orderPoolFull => 0x0D
  | .notFound => 0x0E
  | .staleVersion => 0x0F
  | .busy => 0x10
  | .notReady => 0x11
  | .unroutable => 0x12
  | .unknownRoom => 0x13
  | .notPresent => 0x14
  | .kindMismatch => 0x15
  | .queueFull => 0x16
  | .dropIsolated => 0x17
  | .memoryFault => 0x18

def floorRecordBytes (r : FloorRecord) : Bytes :=
  u8 r.building ++ u8 r.floor ++ u8 r.windowLow ++ u8 r.windowHigh ++ u8 r.localWeight ++ u8 r.onwardWeight ++
    u16 r.offlineTimeout ++ u16 r.riserType

def RoomClass.bytes (c : RoomClass) : Bytes :=
  u8 c.grace ++ u8 c.turnaround ++ u8 c.clean ++ u8 c.walkupMax ++ flag c.presence ++ u8 c.autoEnd ++ u8 c.weight ++
    u8 c.decay ++ u16 c.bump ++ u16 c.tOn ++ u16 c.tOff ++ flag c.closedAtStart

def optDrop (c : Option DropCode) : Bytes := u8 ((c.map dropByte).getD 0xFF)

def Reservation.bytes (i : Nat) (r : Reservation) : Bytes :=
  u16 i ++ u8 r.room ++ u8 r.day.code ++ u8 r.state.code ++ u16 r.start ++ u16 r.stop ++ u8 r.tail ++
    u8 (match r.origin with | .server => 0 | .panel => 1) ++
    u8 (bits [r.serverId.isSome, r.organiser.isSome, r.checkIn.isSome, r.endReason.isSome, r.closedAt.isSome, r.early,
              r.cateringFault, r.dirty]) ++
    u32 ((r.serverId.map BitVec.toNat).getD 0) ++ u16 ((r.organiser.map BitVec.toNat).getD 0) ++
    u16 ((r.checkIn.map CheckIn.slot).getD 0) ++
    u8 (match r.checkIn with | some { how := .presence, .. } => 1 | _ => 0) ++
    u8 ((r.endReason.map EndReason.code).getD 0) ++ u16 ((r.closedAt.map ClosedAt.day).getD 0) ++
    u16 ((r.closedAt.map ClosedAt.slot).getD 0) ++ u16 r.occupied ++
    u8 r.orders.length ++ r.orders.flatMap (fun o => u16 o.toNat) ++ [r.version]

def Order.bytes (o : Order) : Bytes :=
  u16 o.id.toNat ++ u16 o.res ++ u8 o.pantry ++ u16 o.deliverBy ++ u16 o.cutoff ++ u8 o.state.code ++
    u8 (bits [o.late, o.cancelPending, o.refuseReason.isSome, o.seq.isSome]) ++ [o.refuseReason.getD 0] ++
    [o.seq.getD 0] ++ linesBytes o.lines

def Evidence.bytes (e : Evidence) : Bytes :=
  u16 e.value ++ u8 e.peak ++ u8 (bits [e.sampleSeen, e.entryBump]) ++ u8 e.stale ++ u8 (verdictCode e.verdict) ++ u8 e.vacantRun

/-- A Drop Table entry; a kind without the answer slot, stale flag, SHOW-last flag or FIFO gives 0 for it. -/
def Drop.bytes (c : DropCode) (d : Drop) (display : Option Display) : Bytes :=
  let panel : Bool := d.kind = .roomPanel
  u8 (dropByte c) ++ u8 d.kind.code ++ u8 (d.room.getD 0xFF) ++ u8 (d.pantry.getD 0xFF) ++
    u8 ((d.reported.map DropKind.code).getD 0) ++ u8 d.mode.code ++ flag d.present ++ u8 d.miss ++ u8 d.inFlight.code ++
    u16 d.droppedItems ++ u16 d.ignoredFrames ++ flag (panel && d.answer.isSome) ++ flag (panel && d.stale) ++
    flag (panel && d.showLast) ++
    u8 (if d.kind = .roomPanel ∨ d.kind = .roomSensor then d.fifo.length else 0) ++
    (match display with | some x => if panel then x.bytes else [] | none => [])

def Line.bytes (l : Line) : Bytes :=
  u8 l.state.code ++ flag l.feed ++ u8 l.timeoutCode ++ flag l.powerAtStart ++
    l.schedule.toList.flatMap (fun p => u8 p.code) ++ u8 l.pointer ++
    u8 (match l.walk with | .walking => 0 | .parked => 1) ++ u8 l.cursor ++ flag l.turn.isSome ++
    u8 ((l.turn.map Turn.addr).getD 0) ++ flag ((l.turn.map Turn.probe).getD false) ++
    u8 ((l.turn.map Turn.waits).getD 0) ++ u16 l.errors ++ u16 l.timeouts

/-- The available credit: (limit − consumed) mod 256, treated as 0 from 128 up (R105). -/
def Pantry.credit (p : Pantry) : Nat :=
  let a := (p.limit - p.consumed).toNat
  if 128 ≤ a then 0 else a

def ReplayFrame.bytes (f : ReplayFrame) : Bytes :=
  u8 (match f.kind with | .order => 0 | .cancel => 1) ++ [f.seq] ++ optFlag f.order ++
    u16 ((f.order.map BitVec.toNat).getD 0)

/-- A pantry link record as read (section 11.4): the bound drop is the one the Pantry config names (R120; log entry 51). -/
def Pantry.linkBytes (p : Pantry) : Bytes :=
  u8 p.link.code ++ optDrop p.drop ++ [p.nextSeq, p.consumed, p.limit] ++ u8 p.credit ++ u8 (p.replayPos.getD 0xFF) ++
    u8 p.replayCount ++ optFlag p.replayTimer ++ u16 p.dispatch.length ++ u16 p.cancels.length ++ takenField p.taken ++
    u16 p.staleAcks ++ u16 p.creditRange ++ u8 p.replay.length ++ p.replay.flatMap ReplayFrame.bytes

def RiserReading.bytes (x : RiserReading) : Bytes :=
  flag (!x.online) ++ optFlag x.timer ++ u16 (x.timer.getD 0) ++ u8 x.receive ++ u8 x.onwardQueue ++ u8 x.upwardQueue ++
    u8 x.localQueue ++ u8 x.reservations ++ flag x.replyHeld ++ flag x.eventClaim ++ flag x.grantEvent ++
    flag x.shareOnward ++ u8 x.shareCount ++ x.counters.flatMap u16

def Latch.bytes (l : Latch) : Bytes :=
  flag l.isSet ++ [l.causes] ++ u8 l.pendingCount ++ [l.pendingCauses] ++ flag l.unsent

def Boot.bytes (b : Boot) : Bytes :=
  u8 b.load.code ++ u8 ((b.blank.map BlankReason.code).getD 0) ++ u16 b.applied ++ u16 b.clamped ++ u16 b.skipped ++
    optFlag b.firstSkip ++ u16 ((b.firstSkip.map Prod.fst).getD 0) ++
    u8 ((b.firstSkip.map fun x => SkipCause.code x.2).getD 0) ++ optFlag b.write ++
    u16 ((b.write.map Write.offset).getD 0) ++ u8 ((b.write.map fun w => w.run.length).getD 0) ++
    u8 ((b.write.map Write.written).getD 0)

def DirtyEntry.bytes (e : DirtyEntry) : Bytes :=
  u16 e.index ++ [e.version] ++ u8 e.room ++ u8 e.day.code ++ u8 e.state.code

/-- The bytes of a REPLY's body after the code (sections 11.2 and 11.4). -/
def Body.bytes : Body → Bytes
  | .none => []
  | .index i => u16 i
  | .version v => [v]
  | .offset n => u16 n
  | .timeStep t => u8 t.kind.code ++ u16 t.day ++ u16 t.minute ++ u8 t.seconds ++ u16 t.boundaries
  | .dirtyList es next => u8 es.length ++ es.flatMap DirtyEntry.bytes ++ u16 (next.getD 0xFFFF)
  | .loaded table entry clamped => u8 table ++ u8 entry ++ flag clamped
  | .altered i v s e => u16 i ++ [v] ++ u16 s ++ u16 e
  | .withdrawn i v => u16 i ++ [v]
  | .cleared isSet causes => flag isSet ++ [causes]
  | .copies n => u8 n
  | .floorRecord r => floorRecordBytes r
  | .roomMap code => optFlag code ++ u16 ((code.map placeOfRoom).getD 0)
  | .roomClass c => c.bytes
  | .roomTable cls panels sensor service =>
    u8 cls ++ optDrop panels[0]? ++ optDrop panels[1]? ++ optDrop sensor ++ u8 service.code
  | .pantryConfig bound lead code => optDrop bound ++ u8 lead ++ u8 code
  | .reservation i r => r.bytes i
  | .order o => o.bytes
  | .evidence e => e.bytes
  | .drop c d x => d.bytes c x
  | .line l => l.bytes
  | .pantryLink p => p.linkBytes
  | .riserPort r x => floorRecordBytes r ++ x.bytes
  | .floorClock c slot busy =>
    flag c.isSet ++ u16 c.day ++ u16 c.minute ++ u8 c.seconds ++ u16 (slot.getD 0xFFFF) ++ flag busy
  | .eventLatch l counts => l.bytes ++ (match counts with | some (f, d) => u16 f ++ u16 d | Option.none => [])
  | .eventSummary isSet unsent =>
    u8 isSet.length ++ isSet.flatMap u8 ++ u8 unsent.length ++ unsent.flatMap u8
  | .bootStatus b => b.bytes

/-! ## Messages that go up -/

/-- A message's bytes: form FLOOR, the kind code, the tag, the source, no drop, the body's length, the body. -/
def upHeader (building floor : Nat) (code : Nat) (tag : Tag) (body : Bytes) : Bytes :=
  u8 1 ++ u8 code ++ u16 tag.toNat ++ u16 (placeOfRoom { building := building, floor := floor, room := 0 }) ++ u8 0 ++
    u16 body.length ++ body

/-- The bytes of one of the part's own messages (section 11.1.1). A REPLY's layout has no byte for the request's kind,
which the model keeps with the message (log entry 8). -/
def UpMsg.bytes : UpMsg → Bytes
  | .reply b f tag _ code body => upHeader b f 0x81 tag (u8 code.byte ++ body.bytes)
  | .event b f latch causes count flush discard =>
    upHeader b f 0x82 0 (u8 latch ++ [causes] ++ u8 count ++ ((flush.map u16).getD []) ++ ((discard.map u16).getD []))
  | .upframe b f drop kind body => upHeader b f 0x83 0 (u8 (dropByte drop) ++ [kind] ++ u8 body.length ++ body)

/-- The bytes on the uplink while a message is in transmission. -/
def UplinkTx.bytes : UplinkTx → Bytes
  | .own m => m.bytes
  | .forwarded bs => bs

end Sys2Proof.Machine
end

