-- ==== Sys2Proof/Machine/Riser.lean ====
section
/-! DEFINITION. The Riser Port (spec/08): the offline timer, routing, the grant of freed entries, the uplink arbiter and
the two transmitters, and the frame in which every command runs. -/

namespace Sys2Proof.Machine

/-! ## The offline timer (section 8.6) -/

/-- A destination on this floor (R179). -/
def State.isOwn (s : State) : Dest → Bool
  | .broadcast => true
  | .floor b f => b = s.floor.building && f = s.floor.floor
  | .room c => c.building = s.floor.building && c.floor = s.floor.floor
  | .drop b f _ => b = s.floor.building && f = s.floor.floor

/-- A message is shown to the offline timer: one that counts restarts it and sets the state ONLINE (R179, R180). During
the boot load none counts. -/
def State.showTimer (s : State) (d : Dest) : State :=
  if s.isOwn d && !s.loading then
    let t := s.modRiser fun r => { r with offlineTimer := some s.floor.offlineTimeout, offlineCuts := 0, online := true }
    if s.riser.online then t else t.markAll.raise floorLatch .online
  else s

/-! ## Routing (section 8.3) -/

/-- The kinds that each form hands to a block (R171). -/
def blockTakes : Target → MsgKind → Bool
  | .floor, k => !k.upward && !(k = .book) && !(k = .content) && !(k = .service)
  | .room _, k => k = .book || k = .alter || k = .withdraw || k = .content
  | .drop _, k => k = .content || k = .service

/-- What routing does with a message. -/
inductive Action where
  | leave
  | forward
  | answer (code : Code)
  | take (c : Instr)
  deriving DecidableEq, Repr

/-- A message handed to a block, which checks its body (R203), or its BAD_MESSAGE or NOT_READY (R170, R171). -/
def State.blockRoute (s : State) (t : Target) (m : Msg) : Action :=
  if !blockTakes t m.kind then .answer .badMessage
  else if s.loading then .answer .notReady
  else .take ((commandOf t m.kind m.tag m.body).getD (outOfForm t m.kind m.tag))

/-- The Room Map entry that holds a room code (R1). -/
def State.mapped (s : State) (c : RoomCode) : Option Nat :=
  (List.range 48).find? fun i => decide (s.roomMap[i]? = some (some c))

/-- Step 4 of routing (R171). -/
def State.localRoute (s : State) (m : Msg) : Action :=
  match m.dest with
  | .broadcast => if s.loading then .leave else s.blockRoute .floor m
  | .floor _ _ => s.blockRoute .floor m
  | .room c =>
    match s.mapped c with
    | some i => s.blockRoute (.room i) m
    | none => .answer .unknownRoom
  | .drop _ _ c =>
    if !validDrop c || (s.drop c).kind = .unused then .answer .badMessage else s.blockRoute (.drop c) m

/-- A floor of the onward window (R167). -/
def State.inWindow (s : State) (f : Nat) : Bool := decide (s.floor.windowLow ≤ f) && decide (f ≤ s.floor.windowHigh)

/-- Steps 2 to 4 for a building and floor. -/
def State.placeRoute (s : State) (b f : Nat) (m : Msg) : Action :=
  if b ≠ s.floor.building then .answer .unroutable
  else if f ≠ s.floor.floor then (if s.inWindow f then .forward else .answer .unroutable)
  else s.localRoute m

/-- The route of a message with the floor record as it stands (R170). -/
def State.routeOf (s : State) (m : Msg) : Action :=
  match m.dest with
  | .broadcast => s.localRoute m
  | .floor b f => s.placeRoute b f m
  | .room c => s.placeRoute c.building c.floor m
  | .drop b f _ => s.placeRoute b f m

/-- A BROADCAST leaves a copy for the onward port when the onward window is not empty (R170 step 1). -/
def State.copies (s : State) (m : Msg) : Bool := m.dest = .broadcast && decide (s.floor.windowLow ≤ s.floor.windowHigh)

/-- A route that yields a reply needs a reservation (R170, R172). -/
def Action.needsReply : Action → Bool
  | .answer _ => true
  | .take _ => true
  | _ => false

/-- A message joins the uplink-to-onward queue, or is discarded and counted (R170). -/
def State.pushOnward (s : State) (raw : Bytes) : State :=
  s.modRiser fun r =>
    if r.onwardQueue.length < 16 then { r with onwardQueue := r.onwardQueue ++ [raw] }
    else { r with onwardDrops := bump16 r.onwardDrops }

/-- The oldest message of the receive buffer. -/
def State.head (s : State) : Option Msg :=
  match s.riser.receive with
  | raw :: _ => parseMessage raw
  | [] => none

/-- Whether the oldest message of the receive buffer needs a reply. -/
def State.headNeedsReply (s : State) : Bool :=
  match s.head with
  | some m => (s.routeOf m).needsReply
  | none => false

/-- A reservation is taken for a request (R172). -/
def State.addReservation (s : State) (k : MsgKind) (tag : Tag) : State :=
  s.modRiser fun r => { r with reservations := r.reservations ++ [(k, tag)] }

/-- The oldest message, with a reservation to be had if it needs one, leaves the buffer and takes its route (R170, R172). An
ONLINE that the routing raises is placed before the Riser Port's own reply (log entry 47). -/
def State.routeHead (s : State) : State :=
  match s.riser.receive with
  | [] => s.modRiser fun r => { r with replyHeld := false }
  | raw :: rest =>
    let t := s.modRiser fun r => { r with receive := rest, replyHeld := false }
    match parseMessage raw with
    | none => t
    | some m =>
      let a := s.routeOf m
      let t := if a.needsReply then t.addReservation m.kind m.tag else t
      let t := t.showTimer m.dest
      let t := if s.copies m then t.pushOnward raw else t
      match a with
      | .leave => t
      | .forward => t.pushOnward raw
      | .answer code => t.reply m.kind m.tag code .none
      | .take c => t.hand c

/-- Whether the oldest message waits for a grant: no entry is free, and it needs a reply or was held when it did (R172,
R174). -/
def State.headWaits (s : State) : Bool := (s.headNeedsReply || s.riser.replyHeld) && s.freeEntries = 0

/-- What follows a routing: the next message is held when it needs a reply and no entry is free, and is otherwise to be
routed (R170, R172). -/
def State.afterRoute (s : State) : State :=
  match s.riser.receive with
  | [] => s
  | _ :: _ =>
    if s.headWaits then s.modRiser fun r => { r with replyHeld := true }
    else s.handOnce .routeMessage

/-! ## The grant of a freed entry (R174) -/

/-- The entry just freed in a full queue is granted to the claim that waits for it. A granted routing that needs no
reply after all gives the entry back, with the grant flag as it was, and the grant is taken again. -/
def State.grant : Nat → State → State
  | 0, s => s
  | n + 1, s =>
    let replyClaim := s.riser.replyHeld || s.headNeedsReply
    let eventClaim := !s.unsent.isEmpty
    if s.freeEntries = 0 then s
    else if replyClaim && (!eventClaim || !s.riser.grantEvent) then
      if s.headNeedsReply then
        ({ s.routeHead with riser := { s.routeHead.riser with grantEvent := true } }).afterRoute
      else grant n s.routeHead
    else if eventClaim then (s.placeUnsent.modRiser fun r => { r with grantEvent := false }).afterRoute
    else s.afterRoute

/-- Whether a claim waits for an entry of the local transmit queue (R174). -/
def State.claimWaits (s : State) : Bool := s.riser.replyHeld || s.headNeedsReply || !s.unsent.isEmpty

/-- An entry of a full local transmit queue has become free (R173, R174). A late grant, which only a claim can wait for,
keeps the entry for itself: an UPFRAME of the very next command takes it, and every other command finds it granted. A
ROUTE_MESSAGE that takes it stands first among the work that is due (log entry 50). -/
def State.entryFreed (late : Bool) (s : State) : State :=
  if late && s.claimWaits && !s.riser.freed then
    { s.modRiser fun r => { r with freed := true } with due := .routeMessage :: s.due.erase .routeMessage }
  else s.grant 9

/-- The mark of a late grant given up, with the ROUTE_MESSAGE that stands for it (log entry 50). -/
def State.unfreed (s : State) : State :=
  { s with due := s.due.erase .routeMessage, riser := { s.riser with freed := false } }

/-- A late grant is taken (R174; log entry 50). -/
def State.settled (s : State) : State := if s.riser.freed then s.unfreed.grant 9 else s

/-- The oldest message is routed, or held for a reservation (R170, R172). -/
def State.tryRoute (s : State) : State :=
  match s.riser.receive with
  | [] => s
  | _ :: _ =>
    if s.headWaits then s.modRiser fun r => { r with replyHeld := true }
    else s.routeHead.afterRoute

/-! ## The transmitters (section 8.5) -/

/-- The uplink arbiter's choice of share and count (R177 steps 1 and 2). `emptyOf` and `weightOf` give each share's queue
and weight; true is ONWARD. -/
def chooseShare (emptyLocal emptyOnward : Bool) (weightLocal weightOnward : Nat) (share : Bool) (count : Nat) :
    Bool × Nat :=
  let emptyOf := fun o : Bool => if o then emptyOnward else emptyLocal
  let weightOf := fun o : Bool => if o then weightOnward else weightLocal
  let (o, n) := if emptyOf share || decide (weightOf share ≤ count) then (!share, 0) else (share, count)
  if emptyOf o then (!o, 0) else (o, n)

/-- The arbiter names the next message when the transmitter is free, its link is up and a queue holds one (R176, R177).
The grant of an entry freed in a full local transmit queue comes at once or late, as a free value has it (R173, R174; log
entry 50). -/
def State.startUplink (s : State) : State :=
  let r := s.riser
  if r.uplinkTx.isSome || !r.uplinkUp || (r.localQueue.isEmpty && r.upwardQueue.isEmpty) then s
  else
    let (o, n) := chooseShare r.localQueue.isEmpty r.upwardQueue.isEmpty s.floor.localWeight s.floor.onwardWeight
      r.shareOnward r.shareCount
    let t := s.modRiser fun r => { r with shareOnward := o, shareCount := min 15 (n + 1) }
    if o then
      match r.upwardQueue with
      | [] => t
      | raw :: rest => t.modRiser fun r => { r with upwardQueue := rest, uplinkTx := some (.forwarded raw) }
    else
      match r.localQueue with
      | [] => t
      | m :: rest =>
        let t := t.modRiser fun r => { r with localQueue := rest, uplinkTx := some (.own m) }
        if s.freeEntries = 0 then
          { t with freeCount := t.freeCount + 1 }.entryFreed (Config.grantLate t.freeCount)
        else t

/-- The onward transmitter takes the oldest message of its queue when it is free and its link is up (R175). -/
def State.startOnward (s : State) : State :=
  match s.riser.onwardTx, s.riser.onwardUp, s.riser.onwardQueue with
  | none, true, raw :: rest => s.modRiser fun r => { r with onwardQueue := rest, onwardTx := some raw }
  | _, _, _ => s

/-! ## The frame of a command -/

/-- How a command ends that has made the state `t` of the state `s`: held low, the reset input keeps every block as it
stands (R197); otherwise the transmitters take what they can (log entry 29). -/
def commandEnd (s t : State) : Host.Outcome State Fault Refusal :=
  .next (if s.resetLow then s else t.startUplink.startOnward)

/-- How a command runs: after a late grant (R174; log entry 50), it is no longer due and its effect is made. -/
def run (c : Instr) (s : State) (f : State → State) : Host.Outcome State Fault Refusal :=
  commandEnd s (f (s.settled.takeDue c))

/-- How a request of the server is taken: with its reservation, or with a free entry taken now; with neither it goes on
waiting (R172, log entry 3). During the boot load it is replied NOT_READY (R200). -/
def serve (k : MsgKind) (tag : Tag) (c : Instr) (act : State → State) (s : State) : State :=
  if !s.canReply k tag then s.hand c
  else
    let t := s.reserve k tag
    if t.loading then t.reply k tag .notReady .none else act t

/-- Work is taken after earlier work of its kind: boundaries in their order (R14, R94), requests to the Management Engine in
routed order (R183). While a piece of that is due ahead of it, it goes on waiting in its place. `s` is the state before the
command is taken from the work that is due. -/
def afterEarlier (earlier : Instr → Bool) (c : Instr) (s : State) (act : State → State) (t : State) : State :=
  if (s.ahead c).any earlier then s.handOnce c else act t

/-! ## The Management Engine (section 9.1) -/

/-- The requests that the Management Engine takes (R183), each with its kind, its tag and whether its form is right: the encoded
ranges of R203, checked before all else (log entries 27 and 42). -/
def managed : Instr → Option (MsgKind × Tag × Bool)
  | .alter tag none req => some (.alter, tag, refEncoded req.ref)
  | .withdraw tag none ref => some (.withdraw, tag, refEncoded ref)
  | .loadFloorRecord tag _ _ => some (.load, tag, true)
  | .loadRoomMap tag _ _ => some (.load, tag, true)
  | .loadRoomClass tag _ _ => some (.load, tag, true)
  | .loadRoomTable tag _ _ => some (.load, tag, true)
  | .loadDropTable tag _ _ => some (.load, tag, true)
  | .loadLineConfig tag _ fields => some (.load, tag, decide (fields.phases.length = 32))
  | .loadPantryConfig tag _ _ => some (.load, tag, true)
  | .readFloorRecord tag _ => some (.read, tag, true)
  | .readRoomMap tag _ _ => some (.read, tag, true)
  | .readRoomClass tag _ _ => some (.read, tag, true)
  | .readRoomTable tag _ _ => some (.read, tag, true)
  | .readPantryConfig tag _ entry => some (.read, tag, decide (entry ≤ 7))
  | .readReservation tag _ _ => some (.read, tag, true)
  | .readOrder tag _ _ => some (.read, tag, true)
  | .readEvidence tag _ _ => some (.read, tag, true)
  | .readDrop tag _ _ => some (.read, tag, true)
  | .readLine tag _ _ => some (.read, tag, true)
  | .readPantryLink tag _ pantry => some (.read, tag, decide (pantry ≤ 7))
  | .readRiserPort tag _ => some (.read, tag, true)
  | .readFloorClock tag _ => some (.read, tag, true)
  | .readEventLatch tag _ _ => some (.read, tag, true)
  | .readEventSummary tag _ => some (.read, tag, true)
  | .readBootStatus tag _ => some (.read, tag, true)
  | .listDirty tag cursor => some (.listDirty, tag, decide (cursor ≤ 65535))
  | .markClean tag index _ => some (.markClean, tag, decide (index ≤ 65535))
  | .linePowerOn tag _ => some (.control, tag, true)
  | .linePowerOff tag _ => some (.control, tag, true)
  | .lineBreak tag _ => some (.control, tag, true)
  | .dropMode tag _ mode => some (.control, tag, (dropModeOf mode).isSome)
  | .roomClose tag _ => some (.control, tag, true)
  | .roomOpen tag _ => some (.control, tag, true)
  | .pantryResync tag pantry => some (.control, tag, decide (pantry ≤ 7))
  | .clear tag latch => some (.clear, tag, decide (latch ≤ 255))
  | .bootWrite tag _ run => some (.bootWrite, tag, decide (run.length ≤ 64))
  | .restart tag => some (.restart, tag, true)
  | .powerOn | .resetInput | .resetInputHeldLow | .bootHeaderRead | .bootRecordRead | .bootMemoryTimeout
  | .uplinkArrival _ _ | .onwardArrival _ _ | .routeMessage | .uplinkTransmitEnd | .onwardTransmitEnd
  | .uplinkLinkChange _ | .onwardLinkChange _ | .offlineTimerExpiry | .book _ _ _ | .alter _ (some _) _
  | .withdraw _ (some _) _ | .contentRoom _ _ _ _ | .contentDrop _ _ _ _ | .service _ _ _ | .time _ _ _ _
  | .timeStepComplete | .bootPageWriteDone | .bootWriteAckTimeout | .bootReadbackDone _ | .restartTimeout
  | .clockSecond | .evidenceTick | .tickReport _ | .slotBoundary _ _ | .bookingSlotRun _ _ | .dispatcherSlotRun _
  | .dayBoundary _ | .withdrawNotice _ _ | .orderOutcomeNotice _ _ | .keyCheckIn _ | .keyEnd _ | .keyExtend _
  | .walkup _ _ | .sample _ _ | .entry _ _ | .pantryStatus _ _ | .replayTimerExpiry _ | .settlingEnd _
  | .breakLowEnd _ | .breakQuietEnd _ | .powerFault _ | .walkPhase _ | .downFrameSent _ | .upFrameReceived _ _
  | .answerTimeout _ | .frameEndTimeout _ | .abandonedTurnEnd _ | .upFrameFirstByte _ => none

/-- Whether a command is a request that the Management Engine takes. -/
def isManaged (c : Instr) : Bool := (managed c).isSome

/-- How the Management Engine takes a request: in routed order, one at a time; its form, then BUSY while a RESTART waits,
then the rule (R183). `s` is the state before the request is taken. -/
def manage (k : MsgKind) (tag : Tag) (c : Instr) (s : State) (formOk : Bool) (act : State → State) : State → State :=
  afterEarlier isManaged c s (serve k tag c fun t =>
    if !formOk then t.reply k tag .badMessage .none
    else if t.restart.isSome then t.reply k tag .busy .none
    else act t)

/-- A check of a request's own rule that is answered BAD_MESSAGE (R183 check 3; log entry 42). -/
def inRange (k : MsgKind) (tag : Tag) (ok : Bool) (act : State → State) (s : State) : State :=
  if ok then act s else s.reply k tag .badMessage .none

/-! ## Catch-ups -/

/-- The work that a catch-up holds back (R15, R18), and the requests that wait behind it in routed order (R183). -/
def waitsOut (c : Instr) : Bool :=
  isManaged c ||
    match c with
    | .book _ _ _ | .alter _ _ _ | .withdraw _ _ _ => true
    | .keyCheckIn _ | .keyEnd _ | .keyExtend _ | .walkup _ _ | .tickReport _ => true
    | _ => false

/-- The work that is due once the command `c` has been held back, as `again`: what must go before it passes it, and what
waits as it does stays behind it in its order. -/
def State.holdBack (s : State) (c again : Instr) : List Instr :=
  let behind := s.due.drop ((s.ahead c).length + 1)
  s.ahead c ++ behind.filter (fun d => !waitsOut d) ++ again :: behind.filter waitsOut

/-- Work of the Booking Engine during a catch-up, or with a day boundary raised, waits until the last boundary (R15, R18;
log entry 31), as `again`. `s` is the state before the command is taken. -/
def afterCatchUp (c again : Instr) (s : State) (act : State → State) (t : State) : State :=
  if t.catchUp then { t with due := s.holdBack c again } else act t

/-- A request that sees the TODAY list waits while a day boundary is raised and not yet run, so that none sees the old list
with the new day's clock (R15; log entry 31). -/
def afterDay (c : Instr) (s : State) (act : State → State) (t : State) : State :=
  if t.dayRaised then { t with due := s.holdBack c c } else act t

end Sys2Proof.Machine
end

