-- ==== Sys2Proof/Machine/Orders.lean ====
section
/-! DEFINITION. The Catering Dispatcher's records (spec/05): the order pool, the pantry queues, the dispatch window test,
the replay list and the link state. -/

namespace Sys2Proof.Machine

/-! ## The order pool (section 5.2) -/

/-- The order with an ID. -/
def State.order (s : State) (id : OrderId) : Option Order := s.orders.find? fun o => o.id = id

/-- One order changed. -/
def State.modOrder (s : State) (id : OrderId) (f : Order → Order) : State :=
  { s with orders := s.orders.map fun o => if o.id = id then f o else o }

/-- The settled states (R91). -/
def OrderState.settled : OrderState → Bool
  | .delivered | .cancelled | .refused | .wasted | .failed | .expired => true
  | _ => false

/-- An order still in flight to a pantry: SENT or CANCEL_PENDING. -/
def OrderState.inFlight : OrderState → Bool
  | .sent | .cancelPending => true
  | _ => false

/-- The day list of an order's reservation. -/
def State.orderDay (s : State) (o : Order) : Option Day := (s.res o.res).map Reservation.day

/-- Whether an order's reservation is in the PAST set. -/
def State.orderPast (s : State) (o : Order) : Bool := s.orderDay o = some .past

/-- An order's sequence number: that of its latest frame in its pantry's replay list (R92). -/
def lastSeq (list : List ReplayFrame) (id : OrderId) : Option Byte :=
  (list.reverse.find? fun f => f.order = some id).map ReplayFrame.seq

/-- The sequence numbers of a pantry's orders set to what its replay list says (R92). -/
def State.refreshSeqs (s : State) (p : Nat) : State :=
  { s with orders := s.orders.map fun o =>
      if o.pantry = p then { o with seq := lastSeq (s.pantry p).replay o.id } else o }

/-- Order records freed: frames that name them stay in the replay lists with no order (R103). -/
def State.freeOrders (s : State) (ids : List OrderId) : State :=
  { s with
    orders := s.orders.filter fun o => !ids.contains o.id
    pantries := s.pantries.map fun p =>
      { p with replay := p.replay.map fun f =>
          match f.order with
          | some id => if ids.contains id then { f with order := none } else f
          | none => f } }

/-! ## Queues (section 5.4) -/

/-- A list entry placed after every entry whose key is at or before its own (R24, R95). -/
def insertByKey (keyOf : α → Nat) (a : α) (key : Nat) : List α → List α
  | [] => [a]
  | b :: bs => if keyOf b ≤ key then b :: insertByKey keyOf a key bs else a :: b :: bs

/-- The deliver-by slot of a queued order. -/
def State.deliverBy (s : State) (id : OrderId) : Nat := ((s.order id).map Order.deliverBy).getD 0

/-- A HELD order becomes QUEUED and enters its pantry's dispatch queue (R93, R95). -/
def State.enqueue (s : State) (o : Order) : State :=
  (s.modOrder o.id fun o => { o with state := .queued }).modPantry o.pantry fun p =>
    { p with dispatch := insertByKey s.deliverBy o.id o.deliverBy p.dispatch }

/-- The dispatch window test at slot `j`, for an order that is HELD and whose reservation is in a TODAY list (R93). -/
def State.testWindow (s : State) (j : Nat) (id : OrderId) : State :=
  match s.order id with
  | some o =>
    if o.state = .held ∧ s.orderDay o = some .today ∧ o.deliverBy - (s.pantry o.pantry).lead ≤ j then s.enqueue o else s
  | none => s

/-- An order leaves its pantry's dispatch queue. -/
def State.leaveDispatch (s : State) (o : Order) : State :=
  s.modPantry o.pantry fun p => { p with dispatch := p.dispatch.filter fun i => i ≠ o.id }

/-- A CANCEL not yet sent leaves its pantry's cancel queue, and the order's cancel-pending flag is cleared (R92, R96). -/
def State.leaveCancels (s : State) (o : Order) : State :=
  (s.modPantry o.pantry fun p => { p with cancels := p.cancels.filter fun i => i ≠ o.id }).modOrder o.id fun o =>
    { o with cancelPending := false }

/-! ## The link (section 5.5) -/

/-- The replay timer's period in milliseconds (R88). -/
def replayPeriod (code : Nat) : Nat := 1000 * 2 ^ code

/-- The replay timer started with the period that a timeout code gives, which it keeps (R89, R114). -/
def ReplayTimer.start (code : Nat) : ReplayTimer := { left := replayPeriod code, period := replayPeriod code }

/-- The link leaves UP: a replay in progress ends and the timer stops (R98, R113, R114). -/
def Pantry.leaveUp (p : Pantry) (link : LinkState) : Pantry := { p with link := link, replayPos := none, replayTimer := none }

/-- The link goes DOWN with its queues, replay list and counters kept (R98). -/
def State.linkDown (s : State) (p : Nat) : State :=
  s.modPantry p fun x => if x.link = .down then x else x.leaveUp .down

/-- A DOWN link goes to SYNCING (R98). -/
def State.linkRise (s : State) (p : Nat) : State :=
  s.modPantry p fun x => if x.link = .down then x.leaveUp .syncing else x

/-- The orders of a pantry that a fault fails: SENT, QUEUED and CANCEL_PENDING (R100). -/
def Order.failsAt (p : Nat) (o : Order) : Bool :=
  o.pantry = p && (o.state = .sent || o.state = .queued || o.state = .cancelPending)

/-- The run of R100: the pantry's open orders fail, with an order outcome notice for each, and its queues and replay list
are emptied. DESIGN CHOICE: the notices are handed over in the order in which the orders were created (log entry 12). -/
def State.failLink (s : State) (p : Nat) : State :=
  let failed := s.orders.filter (Order.failsAt p)
  let t := { s with orders := s.orders.map fun o =>
      if Order.failsAt p o then { o with state := .failed, cancelPending := false, seq := none }
      else if o.pantry = p then { o with cancelPending := false, seq := none } else o }
  let t := t.modPantry p fun x =>
    { x with dispatch := [], cancels := [], replay := [], replayPos := none, replayTimer := none }
  failed.foldl (fun t o => t.hand (.orderOutcomeNotice o.res o.id)) t

/-- The replay count reaches 4: the link goes FAULTED (R100, R115). -/
def State.linkFault (s : State) (p : Nat) : State :=
  ((s.modPantry p fun x => x.leaveUp .faulted).failLink p).raise (pantryLatch p) .pantryFault

/-- One more replay without progress: the replay starts at a place of the list, or the link faults (R110, R114). -/
def State.startReplay (s : State) (p pos : Nat) (restartTimer : Bool) : State :=
  let t := s.modPantry p fun x => { x with replayCount := min 4 (x.replayCount + 1) }
  if 4 ≤ (t.pantry p).replayCount then t.linkFault p
  else t.modPantry p fun x =>
    { x with
      replayPos := if x.replay = [] then none else some pos
      replayTimer := if restartTimer then some (.start x.timeoutCode) else x.replayTimer }

end Sys2Proof.Machine
end

