-- ==== Sys2Proof/Machine/Store.lean ====
section
/-! DEFINITION. The Reservation Store (spec/02) and the conflict rule (spec/03 section 3.2). -/

namespace Sys2Proof.Machine

/-! ## Records and lists -/

def ResState.live : ResState → Bool
  | .booked | .due | .inUse => true
  | _ => false

/-- A room's day list (R24). -/
def State.dayList (s : State) (room : Nat) (day : Day) : List Nat :=
  match day with
  | .today => (s.room room).today
  | .next => (s.room room).next
  | .past => []

/-- A room's day list changed. -/
def State.modList (s : State) (room : Nat) (day : Day) (f : List Nat → List Nat) : State :=
  s.modRoom room fun e =>
    match day with
    | .today => { e with today := f e.today }
    | .next => { e with next := f e.next }
    | .past => e

/-- The start slot of the record at an index. -/
def State.startOf (s : State) (i : Nat) : Nat := ((s.res i).map Reservation.start).getD 0

/-- A record enters a day list at the place its start gives, after every record with that start (R24). -/
def State.enterList (s : State) (room : Nat) (day : Day) (i start : Nat) : State :=
  s.modList room day (insertByKey s.startOf i start)

/-- The end of the effective window (spec/00 section 6). -/
def Reservation.effEnd (r : Reservation) : Nat := min (r.stop + r.tail) 288

/-- A change of a record: the version goes on by one, and a TODAY record marks its room's displays (R31, R159). -/
def State.changeRes (s : State) (i : Nat) (f : Reservation → Reservation) : State :=
  match s.res i with
  | none => s
  | some r =>
    let t := s.setRes i (some { f r with version := r.version + 1 })
    if r.day = .today then t.markRoom r.room else t

/-- The room's current reservation (R42). -/
def State.current (s : State) (room : Nat) : Option (Nat × Reservation) :=
  (s.room room).today.findSome? fun i =>
    match s.res i with
    | some r => if r.state = .due ∨ r.state = .inUse then some (i, r) else none
    | none => none

/-! ## Blocked windows (R43, R44) -/

/-- The slots a record blocks, from the first up to and not including the second. -/
def Reservation.blocked (r : Reservation) : Option (Nat × Nat) :=
  match r.state with
  | .booked => some (r.start, r.effEnd)
  | .due | .inUse => some (0, r.effEnd)
  | .ended => some (r.stop, r.effEnd)
  | .released | .cancelled => none

/-- Two windows meet when a slot lies in both. -/
def meets (a b : Nat × Nat) : Bool := decide (max a.1 b.1 < min a.2 b.2)

/-- The first record of a day list whose blocked window meets a candidate's effective window (R44). -/
def State.conflict (s : State) (room : Nat) (day : Day) (start stop tail : Nat) (except : Option Nat) : Option Nat :=
  (s.dayList room day).find? fun i =>
    if some i = except then false
    else
      match s.res i with
      | some r =>
        match r.blocked with
        | some w => meets (start, min (stop + tail) 288) w
        | none => false
      | none => false

/-- A slot lies in the tail window of an ENDED record of the TODAY list (R57 check 5, R161 row 8). -/
def State.inTurnaround (s : State) (room c : Nat) : Bool :=
  (s.room room).today.any fun i =>
    match s.res i with
    | some r => r.state = .ended && decide (r.stop ≤ c) && decide (c < r.effEnd)
    | none => false

/-! ## Allocation and reclaim (section 2.3) -/

/-- An order that keeps its record from being reclaimed (R27). -/
def State.holdsRecord (s : State) (id : OrderId) : Bool :=
  match s.order id with
  | some o => o.state = .held || o.state = .queued || o.state.inFlight
  | none => false

/-- A reclaim candidate (R27). -/
def State.isCandidate (s : State) (i : Nat) : Bool :=
  match s.res i with
  | some r =>
    !r.dirty &&
    (match r.state with
      | .released | .cancelled => true
      | .ended =>
        match r.day, s.curSlot with
        | .past, _ => true
        | .today, some c => decide (r.effEnd ≤ c)
        | _, _ => false
      | _ => false) &&
    !r.orders.any s.holdsRecord
  | none => false

/-- The order of candidates: the earlier closed at first, then the lower index. A day lies earlier the further back it
is from the clock's day, modulo 65536 (R28). -/
def State.age (s : State) (i : Nat) : Nat :=
  match (s.res i).bind Reservation.closedAt with
  | some c => ((65535 - (s.clock.day + 65536 - c.day) % 65536) * 289 + c.slot) * 768 + i
  | none => i

/-- The earliest of some candidates (R28). -/
def State.earliest (s : State) (is : List Nat) : Option Nat :=
  is.foldl (fun best i =>
    if s.isCandidate i then
      match best with
      | some b => if s.age i < s.age b then some i else best
      | none => some i
    else best) none

/-- Removes a record from its day list; a TODAY record marks its room's displays (R30, R159). -/
def State.unlist (s : State) (i : Nat) (r : Reservation) : State :=
  let t := s.modList r.room r.day fun l => l.filter fun j => j ≠ i
  if r.day = .today then t.markRoom r.room else t

/-- A record freed with its orders (R30, R37, R38). -/
def State.freeRecord (s : State) (i : Nat) : State :=
  match s.res i with
  | some r => ((s.unlist i r).freeOrders r.orders).setRes i none
  | none => s

/-- Where a record is to be made: its index, and the record to be reclaimed first. -/
structure Place where
  index : Nat
  reclaim : Option Nat
  deriving DecidableEq, Repr

/-- The three checks of R26 (R29): the place found, or the code that refuses the request. -/
def State.allocate (s : State) (room : Nat) (day : Day) (orders : Nat) : Except Code Place :=
  let list := s.dayList room day
  let place : Except Code Place :=
    if list.length < 32 then
      match (List.range 768).find? fun i => s.res i = none with
      | some i => .ok { index := i, reclaim := none }
      | none =>
        match s.earliest (List.range 768) with
        | some i => .ok { index := i, reclaim := some i }
        | none => .error .poolFull
    else
      match s.earliest list with
      | some i => .ok { index := i, reclaim := some i }
      | none => .error .roomListFull
  match place with
  | .error c => .error c
  | .ok p =>
    let freed := match p.reclaim.bind s.res with
      | some r => (s.orders.filter fun o => r.orders.contains o.id).length
      | none => 0
    if orders ≤ 256 - s.orders.length + freed then .ok p else .error .orderPoolFull

/-- A record made at a place: the chosen record is reclaimed, the new one is put at the index and enters its list (R26,
R30). -/
def State.create (s : State) (p : Place) (r : Reservation) : State :=
  let t := match p.reclaim with
    | some i => s.freeRecord i
    | none => s
  let t := (t.enterList r.room r.day p.index r.start).setRes p.index (some r)
  if r.day = .today then t.markRoom r.room else t

/-! ## Entering a terminal state -/

/-- Closed at on a request or event that is no slot boundary (R33, log entry 26). -/
def State.closedNow (s : State) : ClosedAt := { day := s.clock.day, slot := s.curSlot.getD 0 }

/-- A CLOSING room goes to CLOSED as the meeting it waited for becomes terminal (R8). -/
def State.closeDone (s : State) (room : Nat) : State :=
  if (s.room room).service = .closing then
    ((s.modRoom room fun e => { e with service := .closed }).markRoom room).raise (roomLatch room) .closeDone
  else s

/-- A record becomes terminal: one change, the room's CLOSE_DONE when its meeting was IN_USE, and a withdraw notice when
it is RELEASED or CANCELLED with an order (R8, R33, R63). `slot` is the slot of the boundary at which it happens. -/
def State.finish (s : State) (i : Nat) (st : ResState) (why : EndReason) (at_ : ClosedAt) (dirty : Bool)
    (slot : Option Nat) : State :=
  match s.res i with
  | none => s
  | some r =>
    let t := s.changeRes i fun r =>
      { r with state := st, endReason := some why, closedAt := some at_, dirty := r.dirty || dirty }
    let t := if r.state = .inUse then t.closeDone r.room else t
    if (st = .released ∨ st = .cancelled) ∧ r.orders ≠ [] then
      match slot with
      | some _ => t.handNotice (.withdrawNotice i slot)
      | none => t.hand (.withdrawNotice i none)
    else t

/-! ## Rollover and day flush (sections 2.6 and 2.7) -/

/-- The rooms by local index. -/
def allRooms : List Nat := List.range 48

/-- The frames of some orders leave a pantry's replay list, and their CANCELs its cancel queue; a link that was UP then
goes to SYNCING when a frame was removed (R37, R119). -/
def Pantry.dropOrders (p : Pantry) (ids : List OrderId) : Pantry :=
  let kept := p.replay.filter fun f => !(match f.order with | some id => ids.contains id | none => false)
  let q := { p with replay := kept, cancels := p.cancels.filter fun i => !ids.contains i }
  if kept.length < p.replay.length ∧ p.link = .up then q.leaveUp .syncing else q

/-- The first step of rollover: the PAST set is freed, and the dirty records lost are reported (R37). -/
def State.rollPast (s : State) : State :=
  let past := (List.range 768).filter fun i => (s.res i).map Reservation.day = some .past
  let lost := (past.filter fun i => ((s.res i).map Reservation.dirty).getD false).length
  let ids := past.flatMap fun i => ((s.res i).map Reservation.orders).getD []
  let open_ := ids.filter fun id => ((s.order id).map fun o => o.state.inFlight).getD false
  let t := { s with pantries := s.pantries.map fun p => p.dropOrders open_ }
  let t := past.foldl State.freeRecord t
  t.raiseDiscarded lost

/-- What the second step of rollover makes of an order (R38). -/
def State.retireOrder (s : State) (id : OrderId) : State :=
  match s.order id with
  | some o =>
    match o.state with
    | .held => s.modOrder id fun o => { o with state := .cancelled }
    | .queued => (s.leaveDispatch o).modOrder id fun o => { o with state := .cancelled }
    | .accepted => s.modOrder id fun o => { o with state := .expired }
    | _ => s
  | none => s

/-- The second step of rollover for one record of a TODAY list (R38). -/
def State.retire (s : State) (i : Nat) : State :=
  match s.res i with
  | none => s
  | some r =>
    let t := r.orders.foldl State.retireOrder s
    let open_ := r.orders.any fun id => ((t.order id).map fun o => o.state.inFlight).getD false
    if !r.dirty && !open_ then t.freeRecord i
    else
      (t.unlist i r).setRes i (some { r with day := .past, version := r.version + 1 })

/-- The third step of rollover for one room (R40). -/
def State.promote (s : State) (room : Nat) : State :=
  let list := (s.room room).next
  let t := s.modRoom room fun e => { e with today := e.next, next := [] }
  list.foldl (fun t i =>
    match t.res i with
    | some r => t.setRes i (some { r with day := .today, version := r.version + 1 })
    | none => t) t

/-- The rollover, the Booking Engine's and the Dispatcher's parts together (R37 to R40). -/
def State.rollover (s : State) : State :=
  let t := s.rollPast
  let t := allRooms.foldl (fun t room => ((t.room room).today).foldl State.retire t) t
  (allRooms.foldl State.promote t).markAll

/-- A pantry after a day flush (R41, R119). -/
def Pantry.flushed (p : Pantry) : Pantry :=
  let q := { p with dispatch := [], cancels := [], replay := [], replayPos := none, replayTimer := none }
  if p.link = .up ∨ p.link = .syncing then { q with link := .syncing } else q

/-- The day flush (R20, R41): records and orders freed, pantries emptied, CLOSING rooms closed, DAY_FLUSH raised. -/
def State.dayFlush (s : State) : State :=
  let lost := (s.pool.toList.filter fun r => match r with | some r => r.dirty | none => false).length
  let t := { s with
    pool := .replicate 768 none
    orders := []
    rooms := s.rooms.map fun e => { e with today := [], next := [] }
    pantries := s.pantries.map Pantry.flushed }
  let t := allRooms.foldl State.closeDone t
  t.markAll.raiseDayFlush lost

end Sys2Proof.Machine
end

