-- ==== Sys2Proof/Machine/Booking.lean ====
section
/-! DEFINITION. The Booking Engine's server requests (spec/03 sections 3.3 and 3.4, spec/01 section 1.4) and the order
outcome notice. -/

namespace Sys2Proof.Machine

/-- Whether the current slot lies at or beyond a slot; no slot is reached while the clock is unset. -/
def State.reached (s : State) (k : Nat) : Bool :=
  match s.curSlot with
  | some c => decide (k ≤ c)
  | none => false

/-- The record that refuses a BOOK or an ALTER with CONFLICT: the first whose blocked window is met (R44), or the room's
current reservation for a request that would make its record DUE at once (R42; log entry 44). -/
def State.blocker (s : State) (room : Nat) (day : Day) (start stop tail : Nat) (except : Option Nat) (dueNow : Bool) :
    Option Nat :=
  match s.conflict room day start stop tail except with
  | some i => some i
  | none => if dueNow then (s.current room).map Prod.fst else none

/-! ## BOOK -/

def orderReqOk (o : OrderReq) : Bool :=
  decide (o.pantry ≤ 7) && decide (1 ≤ o.lines.length) && decide (o.lines.length ≤ 8) &&
  o.lines.all fun l => decide (l.item ≤ 4095) && decide (1 ≤ l.qty) && decide (l.qty ≤ 63)

/-- The ranges whose failing is answered BAD_MESSAGE (R45, R203). -/
def bookReqOk (b : BookReq) : Bool :=
  decide (b.day ≤ 1) && decide (b.orders.length ≤ 2) && b.orders.all orderReqOk

/-- Check 2 fails (R46). -/
def State.badWindow (s : State) (b : BookReq) : Bool :=
  decide (287 < b.start) || decide (288 < b.stop) || decide (b.stop ≤ b.start) ||
  b.orders.any fun o => (s.servingDrop o.pantry).isNone || decide (287 < o.deliverBy)

/-- Check 5 fails (R46). -/
def State.duplicateId (s : State) (room : Nat) (day : Day) (b : BookReq) : Bool :=
  ((s.dayList room day).any fun i =>
    match s.res i with
    | some r => r.state.live && r.serverId = some b.serverId
    | none => false) ||
  b.orders.any (fun o => (s.order o.id).isSome) ||
  (match b.orders with | [x, y] => x.id = y.id | _ => false)

/-- The tail of a new record (R47). -/
def RoomClass.tailFor (c : RoomClass) (hasOrders : Bool) : Nat := c.turnaround + (if hasOrders then c.clean else 0)

/-- The checks of a BOOK in order (R45): the place it gets, or its refusal with the reply's body. -/
def State.bookChecks (s : State) (room : Nat) (day : Day) (b : BookReq) : Except (Code × Body) Place :=
  let tail := (s.classOf room).tailFor (!b.orders.isEmpty)
  if day = .today ∧ !s.clock.isSet then .error (.noTime, .none)
  else if s.badWindow b then .error (.badWindow, .none)
  else if day = .today ∧ s.reached b.stop then .error (.past, .none)
  else if day = .today ∧ (s.room room).service ≠ .opened then .error (.roomClosed, .none)
  else if s.duplicateId room day b then .error (.duplicateId, .none)
  else
    match s.blocker room day b.start b.stop tail none (day = .today && s.reached b.start) with
    | some i => .error (.conflict, .index i)
    | none =>
      match s.allocate room day b.orders.length with
      | .ok p => .ok p
      | .error c => .error (c, .none)

/-- An order record as a BOOK creates it (R90, R93). -/
def State.newOrder (s : State) (day : Day) (res : Nat) (o : OrderReq) : Order :=
  { id := o.id, res := res, pantry := o.pantry, deliverBy := o.deliverBy, cutoff := min o.cutoff o.deliverBy,
    lines := o.lines, late := day = .today && s.reached o.deliverBy, cancelPending := false, state := .held,
    refuseReason := none, seq := none }

/-- An order's window tested at the current slot (R93). -/
def State.testNow (s : State) (id : OrderId) : State :=
  match s.curSlot with
  | some c => s.testWindow c id
  | none => s

/-- The record of a BOOK (R47). -/
def State.newReservation (s : State) (room : Nat) (day : Day) (b : BookReq) : Reservation :=
  { room := room, day := day, state := if day = .today ∧ s.reached b.start then .due else .booked,
    start := b.start, stop := b.stop, tail := (s.classOf room).tailFor (!b.orders.isEmpty), origin := .server,
    serverId := some b.serverId, organiser := b.organiser, early := false, checkIn := none, endReason := none,
    closedAt := none, occupied := 0, orders := b.orders.map OrderReq.id, cateringFault := false, version := 0,
    dirty := false }

/-- A BOOK that has passed its checks (R47). DESIGN CHOICE: its orders are tested in the order of the record's order list
(R93; log entry 12). -/
def State.makeBooking (s : State) (room : Nat) (day : Day) (b : BookReq) (p : Place) : State :=
  let t := s.create p (s.newReservation room day b)
  let t := { t with orders := t.orders ++ b.orders.map (s.newOrder day p.index) }
  b.orders.foldl (fun t o => t.testNow o.id) t

/-- BOOK (R45 to R47). -/
def execBook (tag : Tag) (room : Nat) (req : BookReq) (s : State) : Host.Outcome State Fault Refusal :=
  let c := Instr.book tag room req
  run c s (serve .book tag c fun t =>
    if 48 ≤ room then t.reply .book tag .unknownRoom .none
    else
      afterCatchUp c c s.settled (fun t =>
        match bookReqOk req, dayOf req.day with
        | true, some day =>
          match t.bookChecks room day req with
          | .error (code, body) => t.reply .book tag code body
          | .ok p => (t.makeBooking room day req p).reply .book tag .accepted (.index p.index)
        | _, _ => t.reply .book tag .badMessage .none) t)

/-! ## ALTER and WITHDRAW -/

/-- The BAD_MESSAGE checks of a reference: a record index 0..767, or a server ID with a day list in room form (R48). -/
def refFormOk (room : Option Nat) : Ref → Bool
  | .index i => decide (i ≤ 767)
  | .serverId _ day => room.isSome && decide (day ≤ 1)

/-- A reference resolved (R48). -/
def State.resolve (s : State) (room : Option Nat) (ref : Ref) : Except Code (Nat × Reservation) :=
  match ref with
  | .index i =>
    match s.res i with
    | none => .error .notFound
    | some r =>
      match room with
      | none => .ok (i, r)
      | some m => if r.room = m then .ok (i, r) else .error .notFound
  | .serverId id day =>
    match room, dayOf day with
    | some m, some d =>
      let same := (s.dayList m d).filterMap fun i =>
        match s.res i with
        | some r => if r.serverId = some id then some (i, r) else none
        | none => none
      if same = [] then .error .notFound
      else
        match same.find? fun x => x.2.state.live with
        | some x => .ok x
        | none => .error .badState
    | _, _ => .error .badMessage

/-- The resulting window of an ALTER, after the replacement of an end already passed (R49). -/
def State.alterWindow (s : State) (r : Reservation) (a : AlterReq) : Nat × Nat :=
  let e := a.newEnd.getD r.stop
  let e' := match s.curSlot with
    | some c => if (r.state = .due ∨ r.state = .inUse) ∧ e ≤ c then c + 1 else e
    | none => e
  (a.newStart.getD r.start, e')

/-- The checks of an ALTER after its reference, in order (R49): the resulting window, or the refusal. -/
def State.alterChecks (s : State) (i : Nat) (r : Reservation) (a : AlterReq) : Except (Code × Body) (Nat × Nat) :=
  let moved := a.newStart.getD r.start ≠ r.start
  let w := s.alterWindow r a
  let bookedToday := r.state = .booked ∧ r.day = .today
  if r.day = .today ∧ !s.clock.isSet then .error (.noTime, .none)
  else if !r.state.live ∨ r.day = .past ∨ (moved ∧ r.state ≠ .booked) ∨
      (moved ∧ r.orders.any fun id => ((s.order id).map Order.state) ≠ some .held) then .error (.badState, .none)
  else if 287 < w.1 ∨ 288 < w.2 ∨ w.2 ≤ w.1 then .error (.badWindow, .none)
  else if bookedToday ∧ s.reached w.2 then .error (.past, .none)
  else if bookedToday ∧ (s.room r.room).service ≠ .opened ∧ s.reached w.1 then .error (.roomClosed, .none)
  else
    match s.blocker r.room r.day w.1 w.2 r.tail (some i)
        (r.state = .booked && r.day = .today && s.reached w.1 && decide (w ≠ (r.start, r.stop))) with
    | some j => .error (.conflict, .index j)
    | none => .ok w

/-- A slot moved with its reservation, clamped to 0..287 (R50). -/
def moveSlot (x old new : Nat) : Nat := min 287 (x + new - old)

/-- A HELD order moved with its reservation's start, with its late flag and its window tested again (R50, R93). -/
def State.moveOrder (s : State) (day : Day) (old new : Nat) (id : OrderId) : State :=
  match s.order id with
  | some o =>
    if o.state = .held then
      let d := moveSlot o.deliverBy old new
      let t := s.modOrder id fun o =>
        { o with deliverBy := d, cutoff := moveSlot o.cutoff old new, late := day = .today && s.reached d }
      t.testNow id
    else s
  | none => s

/-- An ALTER that has passed its checks (R50). DESIGN CHOICE: the orders are moved and tested in the order of the record's
order list (R93; log entry 12). -/
def State.applyAlter (s : State) (i : Nat) (r : Reservation) (w : Nat × Nat) : State :=
  if w = (r.start, r.stop) then s
  else
    let moved := w.1 ≠ r.start
    let t := s.changeRes i fun r =>
      { r with start := w.1, stop := w.2, early := if moved then false else r.early
               state := if r.state = .booked ∧ r.day = .today ∧ s.reached w.1 then .due else r.state }
    if moved then
      let t := (t.modList r.room r.day fun l => l.filter fun j => j ≠ i).enterList r.room r.day i w.1
      r.orders.foldl (fun t id => t.moveOrder r.day r.start w.1 id) t
    else t

/-- The version of the record at an index. -/
def State.versionOf (s : State) (i : Nat) : Byte := ((s.res i).map Reservation.version).getD 0

/-- The Booking Engine's part of an ALTER, with its reply. -/
def State.takeAlter (s : State) (tag : Tag) (room : Option Nat) (a : AlterReq) : State :=
  match s.resolve room a.ref with
  | .error c => s.reply .alter tag c .none
  | .ok (i, r) =>
    match s.alterChecks i r a with
    | .error (code, body) => s.reply .alter tag code body
    | .ok w =>
      let t := s.applyAlter i r w
      t.reply .alter tag .ok (.altered i (t.versionOf i) w.1 w.2)

/-- The BAD_MESSAGE checks of an ALTER: its reference, and at least one new value (R48, R49). -/
def alterFormOk (room : Option Nat) (a : AlterReq) : Bool :=
  refFormOk room a.ref && (a.newStart.isSome || a.newEnd.isSome)

/-- ALTER (R48 to R50); in FLOOR form it comes through the Management Engine (R183). -/
def execAlter (tag : Tag) (room : Option Nat) (req : AlterReq) (s : State) : Host.Outcome State Fault Refusal :=
  let c := Instr.alter tag room req
  let act := afterCatchUp c c s.settled (inRange .alter tag (alterFormOk room req) fun t => t.takeAlter tag room req)
  run c s (match room with
    | none => manage .alter tag c s.settled (refEncoded req.ref) act
    | some _ => serve .alter tag c act)

/-- The Booking Engine's part of a WITHDRAW, with its reply (R51). -/
def State.takeWithdraw (s : State) (tag : Tag) (room : Option Nat) (ref : Ref) : State :=
  match s.resolve room ref with
  | .error c => s.reply .withdraw tag c .none
  | .ok (i, r) =>
    if !r.state.live ∨ r.day = .past then s.reply .withdraw tag .badState .none
    else
      let t := s.finish i .cancelled .withdrawn s.closedNow false none
      t.reply .withdraw tag .ok (.withdrawn i (t.versionOf i))

/-- WITHDRAW (R48, R51). -/
def execWithdraw (tag : Tag) (room : Option Nat) (ref : Ref) (s : State) : Host.Outcome State Fault Refusal :=
  let c := Instr.withdraw tag room ref
  let act := afterCatchUp c c s.settled (inRange .withdraw tag (refFormOk room ref) fun t => t.takeWithdraw tag room ref)
  run c s (match room with
    | none => manage .withdraw tag c s.settled (refEncoded ref) act
    | some _ => serve .withdraw tag c act)

/-! ## ROOM_CLOSE and ROOM_OPEN -/

/-- A room's service state changed, with its displays marked stale (R7, R9, R159). -/
def State.setService (s : State) (room : Nat) (x : Service) : State :=
  (s.modRoom room fun e => { e with service := x }).markRoom room

/-- What ROOM_CLOSE does to a room (R7). -/
def State.closeRoom (s : State) (room : Nat) : State :=
  if (s.room room).service ≠ .opened then s
  else
    match s.current room with
    | some (i, r) =>
      if r.state = .due then
        (((s.finish i .cancelled .roomClosed s.closedNow true none).setService room .closed).raise (roomLatch room)
          .closeDone)
      else s.setService room .closing
    | none => (s.setService room .closed).raise (roomLatch room) .closeDone

/-- ROOM_CLOSE (R7). The range of the index is the rule's own check, after BUSY (R183; log entry 42). -/
def execRoomClose (tag : Tag) (room : Nat) (s : State) : Host.Outcome State Fault Refusal :=
  let c := Instr.roomClose tag room
  run c s (manage .control tag c s.settled true (afterCatchUp c c s.settled
    (inRange .control tag (decide (room ≤ 47)) fun t => (t.closeRoom room).reply .control tag .ok .none)))

/-- ROOM_OPEN (R9; log entry 42 as for ROOM_CLOSE). -/
def execRoomOpen (tag : Tag) (room : Nat) (s : State) : Host.Outcome State Fault Refusal :=
  let c := Instr.roomOpen tag room
  run c s (manage .control tag c s.settled true (afterCatchUp c c s.settled
    (inRange .control tag (decide (room ≤ 47)) fun t =>
      (if (t.room room).service = .opened then t else t.setService room .opened).reply .control tag .ok .none)))

/-! ## The order outcome notice -/

/-- ORDER_OUTCOME_NOTICE (R64): the record takes the catering fault, or the notice is discarded. -/
def execOrderOutcomeNotice (record : Nat) (order : OrderId) (s : State) : Host.Outcome State Fault Refusal :=
  run (.orderOutcomeNotice record order) s fun t =>
    match t.res record with
    | some r =>
      if r.orders.contains order then t.changeRes record fun r => { r with cateringFault := true, dirty := true } else t
    | none => t

end Sys2Proof.Machine
end

