-- ==== Sys2Proof/Machine/Panel.lean ====
section
/-! DEFINITION. The panel requests of the Booking Engine (spec/03 section 3.5). -/

namespace Sys2Proof.Machine

/-- The Booking Engine's ANSWER is placed in the panel's answer slot, replacing any earlier one; it is discarded when
the panel is ISOLATED by then (R152). -/
def State.placeAnswer (s : State) (c : DropCode) (a : Answer) : State :=
  s.modDrop c fun d => if d.kind = .roomPanel ∧ d.mode ≠ .isolated then { d with answer := some a } else d

/-- The room a panel's or a sensor's frame applies to: the binding that stood when it arrived (R52, R73, R74). -/
def State.frameRoom (s : State) (kind : DropKind) (src : FrameFrom) : Option Nat :=
  match src.room with
  | some r => if r < 48 then some r else none
  | none =>
    let d := s.drop src.drop
    if d.kind = kind ∧ d.mode = .normal then d.room else none

/-- A panel request taken: its effect and its answer's result (R52). -/
abbrev Judged := State × AnswerResult

/-- The frame `c` of a panel request: without a bound panel it has no effect (R52); during a catch-up it waits for its end
(R18); else it is judged and answered. `again` is the request with its room fixed, `s` the state before it is taken. -/
def State.panelRequest (s : State) (c : Instr) (src : FrameFrom) (again : Nat → Instr) (request : PanelRequest)
    (judge : State → Nat → Judged) (t : State) : State :=
  match t.frameRoom .roomPanel src with
  | none => t
  | some room =>
    afterCatchUp c (again room) s (fun t =>
      let (u, result) := judge t room
      u.placeAnswer src.drop { request := request, result := result }) t

/-- A refusal: nothing changes. -/
def State.refuse (s : State) (r : Reason) : Judged := (s, .refused r)

/-- The room is CLOSING or CLOSED (R10). -/
def State.shut (s : State) (room : Nat) : Bool := decide ((s.room room).service ≠ .opened)

/-- The records of a room's TODAY list, in list order. -/
def State.todayRecords (s : State) (room : Nat) : List (Nat × Reservation) :=
  (s.room room).today.filterMap fun i => (s.res i).map fun r => (i, r)

/-- KEY CHECK_IN judged (R53). -/
def State.judgeCheckIn (s : State) (room : Nat) : Judged :=
  match s.curSlot with
  | none => s.refuse .noTime
  | some c =>
    if s.shut room then s.refuse .roomClosed
    else
      match s.current room with
      | some (i, r) =>
        if r.state = .due then
          (s.changeRes i fun r => { r with state := .inUse, checkIn := some { slot := c, how := .key }, dirty := true },
            .granted r.start r.stop)
        else (s, .granted r.start r.stop)
      | none =>
        match (s.todayRecords room).find? fun x => x.2.state = .booked && x.2.start = c + 1 with
        | some (i, r) =>
          (if r.early then s else s.changeRes i fun r => { r with early := true, dirty := true },
            .granted r.start r.stop)
        | none =>
          if (s.todayRecords room).any fun x => x.2.state = .released && decide (c < x.2.stop) then s.refuse .tooLate
          else if (s.todayRecords room).any fun x => x.2.state = .booked && decide (c + 1 < x.2.start) then
            s.refuse .notYet
          else s.refuse .noMeeting

/-- KEY_CHECK_IN (R53). -/
def execKeyCheckIn (src : FrameFrom) (s : State) : Host.Outcome State Fault Refusal :=
  let c := Instr.keyCheckIn src
  run c s (s.settled.panelRequest c src (fun room => .keyCheckIn { src with room := some room }) .checkIn State.judgeCheckIn)

/-- KEY END judged (R55). An end already before the bound leaves the reservation, and its answer is a free value (log
entry 14). -/
def State.judgeEnd (s : State) (room : Nat) : Judged :=
  match s.curSlot with
  | none => s.refuse .noTime
  | some c =>
    match s.current room with
    | some (i, r) =>
      let bound := max (c + 1) (r.start + 1)
      if r.state = .inUse then
        if bound < r.stop then
          let t := s.changeRes i fun r =>
            { r with state := .ended, stop := bound, endReason := some .endEarly, closedAt := some s.closedNow
                     dirty := true }
          (t.closeDone room, .granted r.start bound)
        else if r.stop = bound then (s, .granted r.start r.stop)
        else
          ({ s with freeCount := s.freeCount + 1 },
            if Config.freeGranted s.freeCount then .granted r.start r.stop else .refused .noMeeting)
      else s.refuse .noMeeting
    | none => s.refuse .noMeeting

/-- KEY_END (R55). -/
def execKeyEnd (src : FrameFrom) (s : State) : Host.Outcome State Fault Refusal :=
  let c := Instr.keyEnd src
  run c s (s.settled.panelRequest c src (fun room => .keyEnd { src with room := some room }) .finish State.judgeEnd)

/-- KEY EXTEND judged (R56). -/
def State.judgeExtend (s : State) (room : Nat) : Judged :=
  match s.curSlot with
  | none => s.refuse .noTime
  | some _ =>
    if s.shut room then s.refuse .roomClosed
    else
      match s.current room with
      | some (i, r) =>
        if r.state = .inUse then
          if r.stop + 1 ≤ 288 ∧ s.conflict room .today r.start (r.stop + 1) r.tail (some i) = none then
            (s.changeRes i fun r => { r with stop := r.stop + 1, dirty := true }, .granted r.start (r.stop + 1))
          else s.refuse .nextTooSoon
        else s.refuse .noMeeting
      | none => s.refuse .noMeeting

/-- KEY_EXTEND (R56). -/
def execKeyExtend (src : FrameFrom) (s : State) : Host.Outcome State Fault Refusal :=
  let c := Instr.keyExtend src
  run c s (s.settled.panelRequest c src (fun room => .keyExtend { src with room := some room }) .extend State.judgeExtend)

/-- The lowest start of a blocked window of the TODAY list at or after a slot, or 288 (R58). DEDUCED: a window with no slot
in it, as an ENDED record with a tail of 0 leaves, counts as none (log entry 52). -/
def State.nextBlocked (s : State) (room c : Nat) : Nat :=
  (s.todayRecords room).foldl (fun b x =>
    match x.2.blocked with
    | some w => if w.1 < w.2 ∧ c ≤ w.1 then min b w.1 else b
    | none => b) 288

/-- A requested duration: 0 is taken as 1, a value above 12 as 12 (R57). -/
def clampWalkup (n : Nat) : Nat := min 12 (max 1 n)

/-- The record of a walk-up (R58). -/
def walkupRecord (room c d tail : Nat) : Reservation :=
  { room := room, day := .today, state := .inUse, start := c, stop := c + d, tail := tail, origin := .panel,
    serverId := none, organiser := none, early := false, checkIn := some { slot := c, how := .key }, endReason := none,
    closedAt := none, occupied := 0, orders := [], cateringFault := false, version := 0, dirty := true }

/-- WALKUP judged (R57, R58). A term of the duration that would be below zero is 0 here, and refused all the same. -/
def State.judgeWalkup (n : Nat) (s : State) (room : Nat) : Judged :=
  match s.curSlot with
  | none => s.refuse .noTime
  | some c =>
    if s.shut room then s.refuse .roomClosed
    else
      match s.current room with
      | some (_, r) => s.refuse (if r.state = .inUse then .inUse else .bookedNow)
      | none =>
        if s.inTurnaround room c then s.refuse .turnaround
        else
          let k := s.classOf room
          let d := min (min (clampWalkup n) k.walkupMax) (min (288 - c) (s.nextBlocked room c - c - k.turnaround))
          if d = 0 then s.refuse .nextTooSoon
          else
            match s.allocate room .today 0 with
            | .ok p => (s.create p (walkupRecord room c d k.turnaround), .granted c (c + d))
            | .error .roomListFull => s.refuse .roomListFull
            | .error _ => s.refuse .poolFull

/-- WALKUP (R57, R58). -/
def execWalkup (src : FrameFrom) (n : Nat) (s : State) : Host.Outcome State Fault Refusal :=
  let c := Instr.walkup src n
  run c s (s.settled.panelRequest c src (fun room => .walkup { src with room := some room } n) .walkup (State.judgeWalkup n))

end Sys2Proof.Machine
end

