-- ==== Sys2Proof/Machine/Slots.lean ====
section
/-! DEFINITION. The slot boundaries and the tick report of the Booking Engine (spec/03 sections 3.6 and 3.7), and the
Catering Dispatcher's boundaries and withdraw notices (spec/05 sections 5.3 and 5.9). -/

namespace Sys2Proof.Machine

/-- One phase over every room's TODAY list, in room and list order (R59; log entry 13). -/
def State.eachToday (s : State) (f : State → Nat → State) : State :=
  allRooms.foldl (fun t room => ((t.room room).today).foldl f t) s

/-- The ends phase for one record (R60). -/
def State.endAt (day k : Nat) (s : State) (i : Nat) : State :=
  match s.res i with
  | some r =>
    if r.stop = k then
      match r.state with
      | .inUse => s.finish i .ended .normalEnd { day := day, slot := k } false (some k)
      | .due => s.finish i .ended .endUnused { day := day, slot := k } true (some k)
      | _ => s
    else s
  | none => s

/-- The grace-expiry phase for one record (R61). A boundary of a catch-up judges as any other, so it makes the check-in that
R61 gives an OCCUPIED room (log entry 43). -/
def State.judgeAt (day k : Nat) (s : State) (i : Nat) : State :=
  match s.res i with
  | some r =>
    let c := s.classOf r.room
    if r.state = .due ∧ r.start + c.grace ≤ k then
      match (s.ev r.room).verdict with
      | .vacant | .noSensor => s.finish i .released .noShow { day := day, slot := k } true (some k)
      | .occupied =>
        if c.presence then
          s.changeRes i fun r => { r with state := .inUse, checkIn := some { slot := k, how := .presence }, dirty := true }
        else s
      | .unknown => s
    else s
  | none => s

/-- The starts phase for one record (R62). -/
def State.startAt (day k : Nat) (s : State) (i : Nat) : State :=
  match s.res i with
  | some r =>
    if r.state = .booked ∧ r.start = k then
      if s.shut r.room then s.finish i .cancelled .roomClosed { day := day, slot := k } true (some k)
      else if r.early then
        s.changeRes i fun r => { r with state := .inUse, checkIn := some { slot := k, how := .key } }
      else s.changeRes i fun r => { r with state := .due }
    else s
  | none => s

/-- The Booking Engine's run of the boundary for slot `k` of a day (R59). -/
def State.bookingBoundary (s : State) (day k : Nat) : State :=
  ((s.eachToday (State.endAt day k)).eachToday (State.judgeAt day k)).eachToday (State.startAt day k)

/-- BOOKING_SLOT_RUN (R59), after the Booking Engine's earlier boundaries. A boundary of a catch-up, which no
SLOT_BOUNDARY command announces, also marks every room panel stale (R159). -/
def execBookingSlotRun (day slot : Nat) (s : State) : Host.Outcome State Fault Refusal :=
  let c := Instr.bookingSlotRun day slot
  run c s (afterEarlier isBookingBoundary c s.settled fun t =>
    (if c ∈ s.settled.stepWork then t.markAll else t).bookingBoundary day slot)

/-- The Dispatcher's run of the boundary for slot `k`: every HELD order tested (R94; log entry 12). -/
def State.dispatcherBoundary (s : State) (k : Nat) : State :=
  (s.orders.map Order.id).foldl (fun t id => t.testWindow k id) s

/-- DISPATCHER_SLOT_RUN (R94), after the Dispatcher's earlier boundaries. -/
def execDispatcherSlotRun (slot : Nat) (s : State) : Host.Outcome State Fault Refusal :=
  let c := Instr.dispatcherSlotRun slot
  run c s (afterEarlier isDispatcherBoundary c s.settled fun t => t.dispatcherBoundary slot)

/-- What a withdraw notice makes of one order (R116). No CANCEL is appended for an order of a PAST record (R39, log entry
11). -/
def State.withdrawOrder (j : Nat) (s : State) (id : OrderId) : State :=
  match s.order id with
  | none => s
  | some o =>
    let set (t : State) (st : OrderState) := t.modOrder id fun o => { o with state := st }
    match o.state with
    | .held => set s .cancelled
    | .queued => set (s.leaveDispatch o) .cancelled
    | .sent | .accepted =>
      if j < o.cutoff then
        if s.orderPast o then s
        else
          (s.modOrder id fun o => { o with state := .cancelPending, cancelPending := true }).modPantry o.pantry fun p =>
            { p with cancels := p.cancels ++ [id] }
      else set s .wasted
    | .delivered => set s .wasted
    | _ => s

/-- WITHDRAW_NOTICE (R116): the slot compared is the boundary's, or the current one. A notice whose record is no longer
RELEASED or CANCELLED has no effect (log entry 11). DESIGN CHOICE: it acts on the orders in the order of the record's order
list (log entry 12). -/
def execWithdrawNotice (record : Nat) (slot : Option Nat) (s : State) : Host.Outcome State Fault Refusal :=
  run (.withdrawNotice record slot) s fun t =>
    match t.res record with
    | some r =>
      if r.state = .released ∨ r.state = .cancelled then
        r.orders.foldl (State.withdrawOrder (slot.getD (t.curSlot.getD 0))) t
      else t
    | none => t

/-! ## The tick report -/

/-- The presence check-in of a room (R66). -/
def State.presenceCheckIn (s : State) (room : Nat) (e : ReportEntry) : State :=
  match s.current room, s.curSlot with
  | some (i, r), some c =>
    if r.state = .due ∧ (s.classOf room).presence ∧ e.verdict = .occupied then
      s.changeRes i fun r => { r with state := .inUse, checkIn := some { slot := c, how := .presence }, dirty := true }
    else s
  | _, _ => s

/-- The occupied-tick count of a room (R67): no change of the record in the sense of R31. -/
def State.countOccupied (s : State) (room : Nat) (e : ReportEntry) : State :=
  match s.current room with
  | some (i, r) =>
    if r.state = .inUse ∧ e.verdict = .occupied then
      s.modRes i fun r => { r with occupied := bump16 r.occupied }
    else s
  | none => s

/-- The auto-end of a room (R68). -/
def State.autoEndRoom (s : State) (room : Nat) (e : ReportEntry) : State :=
  match s.current room, s.curSlot with
  | some (i, r), some c =>
    let a := (s.classOf room).autoEnd
    if r.state = .inUse ∧ a ≠ 0 ∧ a ≤ e.vacantRun ∧ (e.verdict = .vacant ∨ e.verdict = .occupied) then
      (s.changeRes i fun r =>
        { r with state := .ended, stop := min r.stop (max (c + 1) (r.start + 1)), endReason := some .autoEnd
                 closedAt := some s.closedNow, dirty := true }).closeDone room
    else s
  | _, _ => s

/-- One room of a tick report (R65). -/
def State.reportRoom (s : State) (room : Nat) (e : ReportEntry) : State :=
  ((s.presenceCheckIn room e).countOccupied room e).autoEndRoom room e

/-- The rooms of a tick report in order. A report taken while the clock is unset changes nothing (R65). -/
def State.takeReport (s : State) (entries : List ReportEntry) : State :=
  if s.clock.isSet then
    (entries.zipIdx.filter fun x => decide (x.2 < 48)).foldl (fun t x => t.reportRoom x.2 x.1) s
  else s

/-- TICK_REPORT (R65). -/
def execTickReport (entries : List ReportEntry) (s : State) : Host.Outcome State Fault Refusal :=
  let c := Instr.tickReport entries
  run c s (afterCatchUp c c s.settled fun t => t.takeReport entries)

end Sys2Proof.Machine
end

