-- ==== Sys2Proof/Machine/Clock.lean ====
section
/-! DEFINITION. The Floor Clock (spec/01 sections 1.5 and 1.6): counting, the boundaries it raises, and TIME. -/

namespace Sys2Proof.Machine

/-- The clock one second on (R12). -/
def Clock.advance (c : Clock) : Clock :=
  if c.seconds < 59 then { c with seconds := c.seconds + 1, periods := 0 }
  else if c.minute < 1439 then { c with seconds := 0, minute := c.minute + 1, periods := 0 }
  else { c with seconds := 0, minute := 0, day := (c.day + 1) % 65536, periods := 0 }

/-- One second off the remaining times of the offline timer and the replay timers (log entry 21). -/
def State.countDown (s : State) : State :=
  { s with
    riser := { s.riser with offlineTimer := s.riser.offlineTimer.map fun n => n - 1 }
    pantries := s.pantries.map fun p => { p with replayTimer := p.replayTimer.map fun t => { t with left := t.left - 1000 } } }

/-- The second in progress starts anew (R12): the count of each running timer may be one more second behind (log entry
49). -/
def State.cutSecond (s : State) : State :=
  { s with
    riser := { s.riser with offlineCuts := s.riser.offlineCuts + 1 }
    pantries := s.pantries.map fun p => { p with replayTimer := p.replayTimer.map fun t => { t with cuts := t.cuts + 1 } } }

/-- The timed events of a second that the clock has just passed into: the evidence tick (R13), the slot boundary (R14)
and the day boundary (R15). -/
def State.raiseTimed (s : State) (old : Clock) : State :=
  let c := s.clock
  let t := if c.seconds % 10 = 0 then s.hand .evidenceTick else s
  if c.isSet ∧ c.seconds = 0 then
    if c.minute = 0 then t.hand (.dayBoundary old.day)
    else if c.minute % 5 = 0 then t.hand (.slotBoundary c.day (c.minute / 5))
    else t
  else t

/-- CLOCK_SECOND (R12): during the boot load the clock does not count (R200). -/
def execClockSecond (s : State) : Host.Outcome State Fault Refusal :=
  run .clockSecond s fun t =>
    if t.loading then t
    else ({ t with clock := t.clock.advance }.countDown).raiseTimed t.clock

/-- One boundary as work of the two blocks (R14). -/
def boundaryWork (day k : Nat) : List Instr := [.bookingSlotRun day k, .dispatcherSlotRun k]

/-- SLOT_BOUNDARY (R14): every room panel is marked stale, and the Booking Engine and the Dispatcher are to run the
boundary, whose work takes its place among the boundaries that are due. Only a set clock raises one. -/
def execSlotBoundary (day slot : Nat) (s : State) : Host.Outcome State Fault Refusal :=
  run (.slotBoundary day slot) s fun t =>
    if t.clock.isSet then
      { t.markAll with due := putInPlace (.slotBoundary day slot) (boundaryWork day slot) s.settled.due }
    else t

/-- The day boundary's parts in order: the slot-288 boundary of the old day, the rollover, the slot-0 boundary of the new
day (R15). -/
def State.dayParts (s : State) (oldDay : Nat) : State :=
  let t := (s.bookingBoundary oldDay 288).dispatcherBoundary 288
  ((t.rollover.bookingBoundary ((oldDay + 1) % 65536) 0).dispatcherBoundary 0).markAll

/-- DAY_BOUNDARY (R15), after the earlier boundaries of both blocks. Only a set clock raises one. -/
def execDayBoundary (oldDay : Nat) (s : State) : Host.Outcome State Fault Refusal :=
  run (.dayBoundary oldDay) s (afterEarlier isBoundaryWork (.dayBoundary oldDay) s.settled fun t =>
    if t.clock.isSet then t.dayParts oldDay else t)

/-! ## TIME -/

/-- The step kind of a TIME message (R16). -/
def Clock.classify (c : Clock) (day minute seconds : Nat) : StepKind :=
  if !c.isSet then .firstSet
  else if day = c.day then
    if secondOfDay c.minute c.seconds ≤ secondOfDay minute seconds then .forward else .backward
  else if day = (c.day + 1) % 65536 then .nextDay
  else .flush

/-- The slots of `lo < k ≤ hi`'s boundaries by their instants in seconds of the day: after `lo`, at or before `hi`
(R18). -/
def skippedSlots (lo hi : Nat) : List Nat := (List.range 288).filter fun k => decide (lo < 300 * k) && decide (300 * k ≤ hi)

/-- The catch-up of a TIME step, in order, and the number of slot boundaries in it (R17, R18). -/
def Clock.catchUp (c : Clock) (kind : StepKind) (day minute seconds : Nat) : List Instr × Nat :=
  match kind with
  | .firstSet =>
    let ks := List.range (minute / 5 + 1)
    (ks.flatMap (boundaryWork day), ks.length)
  | .forward =>
    let ks := skippedSlots (secondOfDay c.minute c.seconds) (secondOfDay minute seconds)
    (ks.flatMap (boundaryWork day), ks.length)
  | .nextDay =>
    let old := skippedSlots (secondOfDay c.minute c.seconds) 86399
    let new := skippedSlots 0 (secondOfDay minute seconds)
    (old.flatMap (boundaryWork c.day) ++ [.dayBoundary c.day] ++ new.flatMap (boundaryWork day),
      old.length + 2 + new.length)
  | .backward => ([], 0)
  | .flush => ([], 0)

/-- A TIME message that passes its checks (R16 to R20). -/
def State.takeTime (s : State) (tag : Tag) (day minute seconds : Nat) : State :=
  let kind := s.clock.classify day minute seconds
  let (work, count) := s.clock.catchUp kind day minute seconds
  let t := if kind = .flush then s.dayFlush else s
  let t := { t with
    clock := { isSet := true, seconds := seconds, minute := minute, day := day, periods := 0 }
    timeStep := some { tag := tag, kind := kind, day := day, minute := minute, seconds := seconds, boundaries := count } }
  (work.foldl State.hand t.cutSecond.markAll).hand .timeStepComplete

/-- TIME (R16). -/
def execTime (tag : Tag) (day minute seconds : Nat) (s : State) : Host.Outcome State Fault Refusal :=
  run (.time tag day minute seconds) s (serve .time tag (.time tag day minute seconds) fun t =>
    if 1440 ≤ minute ∨ 60 ≤ seconds ∨ 65536 ≤ day then t.reply .time tag .badMessage .none
    else if t.clockBusy then t.reply .time tag .busy .none
    else t.takeTime tag day minute seconds)

/-- TIME_STEP_COMPLETE (R16): the step's reply is placed when the last of the step's own work is complete; until then it
goes on waiting in its place (log entry 30). -/
def execTimeStepComplete (s : State) : Host.Outcome State Fault Refusal :=
  run .timeStepComplete s (afterEarlier isBoundaryWork .timeStepComplete s.settled fun t =>
    match t.timeStep with
    | some step => ({ t with timeStep := none }).reply .time step.tag .ok (.timeStep step)
    | none => t)

end Sys2Proof.Machine
end

