-- ==== Sys2Proof/Machine/Integrator.lean ====
section
/-! DEFINITION. The Occupancy Integrator (spec/04): samples, entry reports and the evidence tick. -/

namespace Sys2Proof.Machine

/-- A sample of a room's sensor (R73). -/
def Evidence.sample (e : Evidence) (level : Nat) : Evidence :=
  { e with peak := if e.sampleSeen then max e.peak level else level, sampleSeen := true }

/-- SAMPLE (R73, R75). -/
def execSample (src : FrameFrom) (level : Nat) (s : State) : Host.Outcome State Fault Refusal :=
  run (.sample src level) s fun t =>
    match t.frameRoom .roomSensor src with
    | some room => t.modEv room fun e => e.sample (min 255 level)
    | none => t

/-- ENTRY (R74, R75): either state of the contact sets the flag. -/
def execEntry (src : FrameFrom) (isOpen : Bool) (s : State) : Host.Outcome State Fault Refusal :=
  run (.entry src isOpen) s fun t =>
    match t.frameRoom .roomPanel src with
    | some room => t.modEv room fun e => { e with entryBump := true }
    | none => t

/-- The new evidence value (R80). -/
def Evidence.next (e : Evidence) (c : RoomClass) : Nat :=
  min 65535 (e.value - e.value * c.decay / 256 + e.peak * c.weight + (if e.entryBump then c.bump else 0))

/-- The verdict for a new evidence value (R81). -/
def Evidence.judge (e : Evidence) (c : RoomClass) (value : Nat) : Verdict :=
  if c.tOn ≤ value then .occupied
  else if value < c.tOff then .vacant
  else if e.verdict = .occupied then .occupied
  else .vacant

/-- The close of a period (R83). -/
def Evidence.close (e : Evidence) : Evidence := { e with sampleSeen := false, entryBump := false }

/-- One record's tick: whether a sensor is bound, and the room's class (R77 to R83). -/
def Evidence.tick (e : Evidence) (bound : Bool) (c : RoomClass) : Evidence :=
  if !bound then
    Evidence.close { e with verdict := .noSensor, value := 0, peak := 0, stale := 0, vacantRun := 0 }
  else
    let stale := if e.sampleSeen then 0 else min 3 (e.stale + 1)
    if stale = 3 then Evidence.close { e with stale := 3, verdict := .unknown }
    else
      let value := e.next c
      let verdict : Verdict := e.judge c value
      Evidence.close
        { e with stale := stale, value := value, verdict := verdict
                 vacantRun := if verdict = Verdict.vacant then min 255 (e.vacantRun + 1) else 0 }

/-- One room's tick, with SENSOR_STALE when its verdict has become UNKNOWN (R84). -/
def State.tickRoom (s : State) (room : Nat) : State :=
  let e := s.ev room
  let e' := e.tick (s.boundSensor room).isSome (s.classOf room)
  let t := s.modEv room fun _ => e'
  if e'.verdict = .unknown ∧ e.verdict ≠ .unknown then t.raise (roomLatch room) .sensorStale else t

/-- The tick report's entries (R83). -/
def State.reportEntries (s : State) : List ReportEntry :=
  s.evidence.toList.map fun e => { verdict := e.verdict, vacantRun := e.vacantRun }

/-- EVIDENCE_TICK (R77): no tick is raised during the boot load (R200). -/
def execEvidenceTick (s : State) : Host.Outcome State Fault Refusal :=
  run .evidenceTick s fun t =>
    if t.loading then t
    else
      let u := allRooms.foldl State.tickRoom t
      u.hand (.tickReport u.reportEntries)

end Sys2Proof.Machine
end

