-- ==== Sys2Proof/Machine/Dispatcher.lean ====
section
/-! DEFINITION. The Catering Dispatcher at a pantry's turns (spec/05 sections 5.6 to 5.8): the frame it names, and the
PANTRY_STATUS and the timer expiry it takes. -/

namespace Sys2Proof.Machine

/-! ## The frame of a turn -/

/-- What an ORDER frame carries of its order and its reservation (R101). -/
def State.orderFields (s : State) (o : Order) : OrderFields :=
  let r := s.res o.res
  let room := (r.map Reservation.room).getD 0
  { id := o.id, room := s.roomMap[room]?.getD none, roomIndex := room, deliverBy := o.deliverBy, late := o.late,
    organiser := r.bind Reservation.organiser, lines := o.lines }

/-- A frame joins the newest end of the replay list with the next sequence; the timer starts when the list was empty
(R102, R104). -/
def Pantry.append (p : Pantry) (kind : FrameKind) (id : OrderId) : Pantry :=
  { p with
    replay := p.replay ++ [{ kind := kind, seq := p.nextSeq, order := some id }]
    nextSeq := p.nextSeq + 1
    replayTimer := if p.replay = [] then some (.start p.timeoutCode) else p.replayTimer }

/-- The frame at the replay position, resent; the position goes on, or the replay ends (R113). A frame whose order has
been freed carries free values (log entry 25). -/
def State.resend (s : State) (p pos : Nat) (f : ReplayFrame) : State × DownFrame :=
  let x := s.pantry p
  let t := s.modPantry p fun x => { x with replayPos := if pos + 1 < x.replay.length then some (pos + 1) else none }
  match f.order.bind s.order with
  | some o =>
    match f.kind with
    | .order => (t, .order x.taken f.seq (s.orderFields o))
    | .cancel => (t, .cancel x.taken o.id f.seq)
  | none => ({ t with freeCount := t.freeCount + 1 }, .freed x.taken f.kind f.seq s.freeCount)

/-- A CANCEL sent from the head of the cancel queue (R104). -/
def State.sendCancel (s : State) (p : Nat) (id : OrderId) : State × DownFrame :=
  let x := s.pantry p
  let t := s.modPantry p fun x => { x.append .cancel id with cancels := x.cancels.tail }
  (t.modOrder id fun o => { o with cancelPending := false, seq := some x.nextSeq }, .cancel x.taken id x.nextSeq)

/-- An ORDER sent from the head of the dispatch queue (R102). -/
def State.sendOrder (s : State) (p : Nat) (o : Order) : State × DownFrame :=
  let x := s.pantry p
  let t := s.modPantry p fun x => { x.append .order o.id with dispatch := x.dispatch.tail, consumed := x.consumed + 1 }
  (t.modOrder o.id fun o => { o with state := .sent, seq := some x.nextSeq },
    .order x.taken x.nextSeq (s.orderFields o))

/-- The head of the dispatch queue as an order (R95). -/
def State.headOrder (s : State) (p : Nat) : Option Order := (s.pantry p).dispatch.head?.bind s.order

/-- The frame being replayed, with its place (R113). -/
def Pantry.replaying (p : Pantry) : Option (Nat × ReplayFrame) :=
  p.replayPos.bind fun i => p.replay[i]?.map fun f => (i, f)

/-- The frame the Dispatcher names at a turn, with the effects of sending it (R101). -/
def State.pantryFrame (s : State) (p : Nat) : State × DownFrame :=
  let x := s.pantry p
  match x.link with
  | .syncing => (s, .resync x.taken)
  | .up =>
    match x.replaying with
    | some (i, f) => s.resend p i f
    | none =>
      if x.replay.length < 32 then
        match x.cancels with
        | id :: _ => s.sendCancel p id
        | [] =>
          match s.headOrder p with
          | some o => if 0 < x.credit then s.sendOrder p o else (s, .poll (some x.taken))
          | none => (s, .poll (some x.taken))
      else (s, .poll (some x.taken))
  | .down | .faulted => (s, .poll (some x.taken))

/-! ## PANTRY_STATUS -/

/-- What the acknowledgement of a frame makes of its order (R109). -/
def State.acked (s : State) (f : ReplayFrame) : State :=
  match f.order.bind s.order with
  | none => s
  | some o =>
    match f.kind, o.state with
    | .order, .sent =>
      s.modOrder o.id fun x => { x with state := if s.orderPast o then .expired else .accepted }
    | .cancel, .cancelPending =>
      s.modOrder o.id fun x => { x with state := if s.orderPast o then .expired else .cancelled }
    | _, _ => s

/-- The list after the acknowledgement of its `k` oldest frames, which is progress (R109). -/
def Pantry.ackFrames (p : Pantry) (k : Nat) : Pantry :=
  let rest := p.replay.drop k
  { p with
    replay := rest
    replayPos := if rest = [] then none else p.replayPos.map fun i => i - k
    replayCount := 0
    replayTimer := if rest = [] then none else some (.start p.timeoutCode) }

/-- The `k` oldest frames removed as acknowledged, oldest first (R109). -/
def State.ackFrames (s : State) (p k : Nat) : State :=
  let frames := (s.pantry p).replay.take k
  ((frames.foldl State.acked s).modPantry p fun x => x.ackFrames k).refreshSeqs p

/-- The oldest frame's sequence, or next sequence for an empty list (R108). -/
def Pantry.oldest (p : Pantry) : Byte := ((p.replay.head?).map ReplayFrame.seq).getD p.nextSeq

/-- A sequence number's place in the outstanding span; none outside it (R108). -/
def Pantry.placeOf (p : Pantry) (n : Byte) : Option Nat :=
  let k := (n - p.oldest).toNat
  if k < p.replay.length then some k else none

/-- A sequence number out of span is counted (R109, R110). -/
def State.countStale (s : State) (p : Nat) : State := s.modPantry p fun x => { x with staleAcks := bump16 x.staleAcks }

/-- An ACK (R109). -/
def State.takeAck (s : State) (p : Nat) (n : Byte) : State :=
  let x := s.pantry p
  match x.placeOf n with
  | some k => s.ackFrames p (k + 1)
  | none => if n = x.oldest - 1 then s else s.countStale p

/-- A NACK (R110). -/
def State.takeNack (s : State) (p : Nat) (n : Byte) : State :=
  match (s.pantry p).placeOf n with
  | some k => (if 0 < k then s.ackFrames p k else s).startReplay p 0 false
  | none => s.countStale p

/-- The limit reported (R105, R106). -/
def State.takeLimit (s : State) (p : Nat) (limit : Byte) : State :=
  s.modPantry p fun x =>
    { x with limit := limit
             creditRange := if 128 ≤ (limit - x.consumed).toNat then bump16 x.creditRange else x.creditRange }

/-- What a READY report makes of its order (R111). -/
def State.readyState (s : State) (o : Order) : OrderState :=
  match s.res o.res with
  | some r =>
    if r.day = .past then .expired
    else
      match r.state with
      | .released | .cancelled => .wasted
      | _ => .delivered
  | none => .expired

/-- A report: its ID is echoed, and an order of this pantry still open at it is settled (R107, R111, R112). -/
def State.takeReportOf (s : State) (p : Nat) (x : PantryReport) : State :=
  let t := s.modPantry p fun y => { y with taken := some x.order }
  match t.order x.order with
  | none => t
  | some o =>
    if o.pantry = p ∧ (o.state = .sent ∨ o.state = .accepted ∨ o.state = .cancelPending) then
      let t := t.leaveCancels o
      match x.refuse with
      | none => t.modOrder o.id fun y => { y with state := s.readyState o }
      | some why =>
        (t.modOrder o.id fun y => { y with state := .refused, refuseReason := some why }).hand
          (.orderOutcomeNotice o.res o.id)
    else t

def State.takeReportOpt (s : State) (p : Nat) (x : Option PantryReport) : State :=
  match x with
  | some r => s.takeReportOf p r
  | none => s

/-- The replay list renumbered from 0 (R99 step 2). -/
def renumber (frames : List ReplayFrame) : List ReplayFrame :=
  frames.zipIdx.map fun x => { x.1 with seq := BitVec.ofNat 8 x.2 }

/-- The resynchronisation of a link (R99 steps 1 to 4). The limit it takes counts in the credit-range count by the
available credit that it leaves (R105; log entry 15). -/
def Pantry.resync (p : Pantry) (limit : Byte) : Pantry :=
  let list := renumber p.replay
  let orders := (list.filter fun f => f.kind = .order).length
  { p with
    link := .up
    replay := list
    nextSeq := BitVec.ofNat 8 list.length
    consumed := BitVec.ofNat 8 orders
    limit := limit
    creditRange := if 128 ≤ (limit - BitVec.ofNat 8 orders).toNat then bump16 p.creditRange else p.creditRange
    replayCount := 0
    taken := none
    replayPos := if list = [] then none else some 0
    replayTimer := if list = [] then none else some (.start p.timeoutCode) }

/-- A PANTRY_STATUS taken by the state of the link (R106). -/
def State.takeStatus (s : State) (p : Nat) (x : PantryStatus) : State :=
  match (s.pantry p).link with
  | .down => s
  | .syncing =>
    if x.resyncAck then
      (((s.modPantry p fun y => y.resync x.limit).refreshSeqs p).raise (pantryLatch p) .synced).takeReportOpt p x.report
    else s
  | .faulted => (s.takeLimit p x.limit).takeReportOpt p x.report
  | .up =>
    let t := s.takeLimit p x.limit
    let t := match x.seq with
      | some n => if x.nack then t.takeNack p n else t.takeAck p n
      | none => t
    t.takeReportOpt p x.report

/-- PANTRY_STATUS (R106): taken from a pantry's bound drop in NORMAL mode. -/
def execPantryStatus (drop : DropCode) (status : PantryStatus) (s : State) : Host.Outcome State Fault Refusal :=
  run (.pantryStatus drop status) s fun t =>
    match t.servedPantry drop with
    | some p => if (t.drop drop).mode = .normal then t.takeStatus p status else t
    | none => t

/-- The replay timer is at its end: it runs, with no more than its last second left, and time has passed since its start, by
the period it was started with (R89). Each TIME message taken since the start may have cut a second of the count short (R12),
so the count can be that many seconds behind (log entry 49). -/
def Pantry.timerEnds (p : Pantry) : Bool :=
  p.replayTimer.any fun t => decide (t.left ≤ 1000 * (1 + t.cuts)) && decide (t.left < t.period ∨ 0 < t.cuts)

/-- REPLAY_TIMER_EXPIRY (R114). No expiry falls for a start that an answer's progress has replaced. -/
def execReplayTimerExpiry (pantry : Nat) (s : State) : Host.Outcome State Fault Refusal :=
  run (.replayTimerExpiry pantry) s fun t =>
    if (t.pantry pantry).timerEnds ∧ pantry < 8 then t.startReplay pantry 0 true else t

/-- PANTRY_RESYNC (R100). A pantry above 7 is among the encoded ranges of R203 (log entry 42). -/
def execPantryResync (tag : Tag) (pantry : Nat) (s : State) : Host.Outcome State Fault Refusal :=
  let c := Instr.pantryResync tag pantry
  run c s (manage .control tag c s.settled (decide (pantry ≤ 7)) fun t =>
    match (t.pantry pantry).link with
    | .down => t.reply .control tag .notPresent .none
    | .syncing => t.reply .control tag .ok .none
    | .up | .faulted => (t.modPantry pantry fun x => x.leaveUp .syncing).reply .control tag .ok .none)

end Sys2Proof.Machine
end

