-- ==== Sys2Proof/Machine/Panels.lean ====
section
/-! DEFINITION. The Drop Manager (spec/07): panel displays, presence, the choice and hand-over of a down frame, the
passing on of answers, and the CONTENT and SERVICE requests. -/

namespace Sys2Proof.Machine

/-! ## Panel displays (section 7.5) -/

/-- The room's next reservation: the first BOOKED record of its TODAY list (R160). -/
def State.nextBooked (s : State) (room : Nat) : Option Reservation :=
  ((s.todayRecords room).find? fun x => x.2.state = .booked).map Prod.snd

/-- The shown reservation (R160). -/
def State.shown (s : State) (room : Nat) : Option Reservation :=
  match s.current room with
  | some (_, r) => some r
  | none => s.nextBooked room

/-- The state code, the ring and whether it blinks, for a panel's room (R161). -/
def State.face (s : State) : Option Nat → StateCode × Ring × Bool
  | none => (.noRoom, .off, false)
  | some room =>
    match (s.room room).service with
    | .closing => (.closing, .red, true)
    | .closed => (.closed, .red, true)
    | .opened =>
      match s.curSlot with
      | none => (.noTime, .off, false)
      | some c =>
        match s.current room with
        | some (_, r) =>
          if r.state = .inUse then (.inUse, .red, false)
          else if c < r.start + (s.classOf room).grace - 1 then (.due, .amber, false)
          else (.dueLast, .amber, true)
        | none =>
          if s.inTurnaround room c then (.turnaround, .off, false)
          else
            match s.nextBooked room with
            | some r => if r.start ≤ c + 3 then (.freeSoon, .green, true) else (.free, .green, false)
            | none => (.free, .green, false)

/-- The minutes to a room's next start (R160). -/
def State.minutesToNext (s : State) (room : Nat) : Option Nat :=
  if s.clock.isSet then (s.nextBooked room).map fun r => 5 * r.start - s.clock.minute else none

/-- The display record of a panel with a room binding or none (R160). -/
def State.display (s : State) (binding : Option Nat) : Display :=
  let f := s.face binding
  let r := binding.bind s.shown
  { code := f.1, ring := f.2.1, blink := f.2.2, minutes := binding.bind s.minutesToNext,
    organiser := r.bind Reservation.organiser, offline := !s.riser.online,
    cateringFault := (r.map Reservation.cateringFault).getD false }

/-! ## Presence and kind (section 7.2) -/

/-- A drop that is visited at its own phases: NORMAL or SHADOW. -/
def DropMode.served : DropMode → Bool
  | .normal | .shadow => true
  | _ => false

/-- A drop becomes present, if it was not (R147). A room panel's display is marked stale in every mode (R159; log entry
46). -/
def State.becomePresent (s : State) (c : DropCode) : State :=
  let d := s.drop c
  if d.present then s
  else
    let t := s.modDrop c fun d =>
      { d.marked with present := true }
    let t := t.raise (dropLatch c) .presence
    match s.servedPantry c with
    | some p => if d.mode = .normal then t.linkRise p else t
    | none => t

/-- A drop becomes not present, if it was present (R147). -/
def State.becomeAbsent (s : State) (c : DropCode) : State :=
  if (s.drop c).present then
    let t := (s.modDrop c fun d => { d with present := false }).raise (dropLatch c) .presence
    match s.servedPantry c with
    | some p => t.linkDown p
    | none => t
  else s

/-- The in-flight item of a turn that has failed (R158). -/
def Drop.loseItem (d : Drop) : Drop :=
  match d.inFlight with
  | .none => d
  | .show => { d with stale := true, inFlight := .none }
  | .content => { d with droppedItems := bump16 d.droppedItems, inFlight := .none }
  | .service => { d with droppedItems := bump16 d.droppedItems, inFlight := .none }
  | .answer => { d with inFlight := .none }

/-- An IDENT (R148). -/
def State.takeIdent (s : State) (c : DropCode) (k : DropKind) : State :=
  let d := s.drop c
  let t := s.modDrop c fun d => { d with reported := some k }
  if d.kind ≠ .unused ∧ d.kind ≠ k ∧ d.reported ≠ some k then t.raise (dropLatch c) .kindMismatch else t

/-! ## The frame of a turn (section 7.4) -/

/-- The oldest FIFO item handed over: a CONTENT item is stamped, and the SHOW-last flag is cleared (R157, R165). -/
def State.handItem (s : State) (c : DropCode) (item : Item) : State × DownFrame :=
  match item with
  | .content _ text =>
    (s.modDrop c fun d => { d with fifo := d.fifo.tail, showLast := false, inFlight := .content },
      .content (BitVec.ofNat 8 (s.face (s.drop c).room).1.code) text)
  | .service body =>
    (s.modDrop c fun d => { d with fifo := d.fifo.tail, showLast := false, inFlight := .service }, .service body)

/-- A SHOW handed over (R157). -/
def State.handShow (s : State) (c : DropCode) : State × DownFrame :=
  (s.modDrop c fun d => { d with stale := false, showLast := true, inFlight := .show },
    .show (s.display (s.drop c).room))

/-- Nothing is handed over (R157). -/
def State.handPoll (s : State) (c : DropCode) (f : DownFrame) : State × DownFrame :=
  (s.modDrop c fun d => { d with inFlight := .none }, f)

/-- A room panel's frame (R156). -/
def State.panelFrame (s : State) (c : DropCode) : State × DownFrame :=
  let d := s.drop c
  match d.answer with
  | some a => (s.modDrop c fun d => { d with answer := none, inFlight := .answer }, .answer a)
  | none =>
    match d.stale, d.fifo with
    | true, [] => s.handShow c
    | false, item :: _ => s.handItem c item
    | true, item :: _ => if d.showLast then s.handItem c item else s.handShow c
    | false, [] => s.handPoll c (.poll none)

/-- The frame of a turn at a drop's own phase (R155). A drop configured PANTRY gets a POLL with the taken field of its
pantry index when it does not serve that pantry (log entry 41). -/
def State.dropFrame (s : State) (c : DropCode) : State × DownFrame :=
  let d := s.drop c
  match d.kind with
  | .roomPanel => s.panelFrame c
  | .roomSensor =>
    match d.fifo with
    | item :: _ => s.handItem c item
    | [] => s.handPoll c (.poll none)
  | .pantry =>
    match s.servedPantry c with
    | some p => s.pantryFrame p
    | none => s.handPoll c (.poll (some (d.pantry.bind fun p => (s.pantry p).taken)))
  | .unused => s.handPoll c (.poll none)

/-! ## The answer of a GOOD turn -/

/-- The configured kind and binding that a frame needs to be acted on (R153). -/
def State.sends (s : State) (c : DropCode) : UpFrame → Bool
  | .key _ | .walkup _ | .entry _ => (s.drop c).kind = .roomPanel && (s.drop c).room.isSome
  | .sample _ => (s.drop c).kind = .roomSensor && (s.drop c).room.isSome
  | .pantryStatus _ => (s.servedPantry c).isSome
  | .serviceAnswer _ => true
  | _ => false

/-- The command by which a frame reaches its block (R153). -/
def frameCommand (c : DropCode) (room : Option Nat) : UpFrame → Option Instr
  | .key .checkIn => some (.keyCheckIn { drop := c, room := room })
  | .key .finish => some (.keyEnd { drop := c, room := room })
  | .key .extend => some (.keyExtend { drop := c, room := room })
  | .walkup n => some (.walkup { drop := c, room := room } n)
  | .entry o => some (.entry { drop := c, room := room } o)
  | .sample l => some (.sample { drop := c, room := room } l)
  | .pantryStatus x => some (.pantryStatus c x)
  | _ => none

/-- A good answer frame passed on (R153): `kind` and `body` are its bytes as received, for an UPFRAME (R154). -/
def State.passOn (s : State) (c : DropCode) (f : UpFrame) (kind : Byte) (body : Bytes) : State :=
  let d := s.drop c
  match f with
  | .idle | .wait => s
  | .ident k => s.takeIdent c k
  | f =>
    if !s.sends c f || !d.mode.served then s.modDrop c fun d => { d with ignoredFrames := bump16 d.ignoredFrames }
    else
      match d.mode, frameCommand c d.room f with
      | .normal, some i => s.hand i
      | _, _ => s.placeUpframe c kind body

/-! ## CONTENT and SERVICE (section 7.6) -/

/-- An item at the tail of a drop's FIFO. -/
def State.queueItem (s : State) (c : DropCode) (item : Item) : State :=
  s.modDrop c fun d => { d with fifo := d.fifo ++ [item] }

/-- Whether a drop's FIFO has space (R151). -/
def State.hasSpace (s : State) (c : DropCode) : Bool := decide ((s.drop c).fifo.length < 4)

/-- CONTENT_ROOM (R162). -/
def execContentRoom (tag : Tag) (room : Nat) (state : Byte) (text : Bytes) (s : State) :
    Host.Outcome State Fault Refusal :=
  run (.contentRoom tag room state text) s (serve .content tag (.contentRoom tag room state text) fun t =>
    if 48 ≤ room then t.reply .content tag .unknownRoom .none
    else if 239 < text.length then t.reply .content tag .badMessage .none
    else
      let eligible := (t.boundPanels room).filter fun c => (t.drop c).mode ≠ .isolated
      let free := eligible.filter t.hasSpace
      if eligible = [] then t.reply .content tag .notPresent .none
      else if free = [] then t.reply .content tag .queueFull .none
      else (free.foldl (fun u c => u.queueItem c (.content state text)) t).reply .content tag .ok (.copies free.length))

/-- CONTENT_DROP (R163). -/
def execContentDrop (tag : Tag) (drop : DropCode) (state : Byte) (text : Bytes) (s : State) :
    Host.Outcome State Fault Refusal :=
  run (.contentDrop tag drop state text) s (serve .content tag (.contentDrop tag drop state text) fun t =>
    if !validDrop drop || (t.drop drop).kind ≠ .roomPanel || decide (239 < text.length) then
      t.reply .content tag .badMessage .none
    else if (t.drop drop).mode = .isolated then t.reply .content tag .dropIsolated .none
    else if !t.hasSpace drop then t.reply .content tag .queueFull .none
    else (t.queueItem drop (.content state text)).reply .content tag .ok (.copies 1))

/-- SERVICE (R164). -/
def execService (tag : Tag) (drop : DropCode) (body : Bytes) (s : State) : Host.Outcome State Fault Refusal :=
  run (.service tag drop body) s (serve .service tag (.service tag drop body) fun t =>
    let k := (t.drop drop).kind
    if !validDrop drop || !(k = .roomPanel || k = .roomSensor) || decide (240 < body.length) then
      t.reply .service tag .badMessage .none
    else if (t.drop drop).mode = .isolated then t.reply .service tag .dropIsolated .none
    else if !t.hasSpace drop then t.reply .service tag .queueFull .none
    else (t.queueItem drop (.service body)).reply .service tag .ok .none)

end Sys2Proof.Machine
end

