-- ==== Sys2Proof/Machine/Lines.lean ====
section
/-! DEFINITION. The Line Controllers (spec/06): power, the walk through the schedule, turns and their outcomes. -/

namespace Sys2Proof.Machine

/-! ## Turns -/

/-- The line goes on walking: its Line Controller is to take the next phase. -/
def State.handWalk (s : State) (l : Nat) : State := s.handOnce (.walkPhase l)

/-- The up frame in reception as the turn ends: one received in part while an abandoned turn waited out its timeout is
discarded with it (R141), any other is outside a turn (R135, R140; log entry 37). -/
def Line.leftOver (x : Line) : Option Incoming :=
  match x.turn with
  | some t =>
    if t.abandoned then if t.stage = .receiving ∨ x.incoming ≠ none then some .discarded else none
    else if x.incoming = some .collided then some .outside else x.incoming
  | none => x.incoming

/-- A turn has ended: the pointer goes on, or to 0 after a schedule LOAD, and the walk goes on (R131, R122). -/
def State.endTurn (s : State) (l : Nat) : State :=
  (s.modLine l fun x =>
    { x with turn := none, pointer := if x.reload then 0 else (x.pointer + 1) % 32, reload := false
             incoming := x.leftOver }).handWalk l

/-- A turn ended MISS (R139, R147, R158). -/
def State.missTurn (s : State) (l : Nat) (t : Turn) : State :=
  let c : DropCode := { line := l, addr := t.addr }
  let u := s.modDrop c fun d => { d.loseItem with miss := min 3 (d.miss + 1) }
  (if (u.drop c).miss = 3 then u.becomeAbsent c else u).endTurn l

/-- A turn ended GOOD with its answer (R139, R147, R153). DESIGN CHOICE: the walk's next phase stands in the work that is due
ahead of the answer's own command, so the next frame is named before that is taken, unless a command of `pending` takes it
first (R107; log entry 2). -/
def State.goodTurn (s : State) (l : Nat) (t : Turn) (f : UpFrame) (kind : Byte) (body : Bytes) : State :=
  let c : DropCode := { line := l, addr := t.addr }
  let u := (s.modDrop c fun d => { d with miss := 0, inFlight := .none }).becomePresent c
  (u.endTurn l).passOn c f kind body

/-- One more error of a line (R142). -/
def State.countError (s : State) (l : Nat) : State := s.modLine l fun x => { x with errors := bump16 x.errors }

/-- One more timeout of a line (R142). -/
def State.countTimeout (s : State) (l : Nat) : State := s.modLine l fun x => { x with timeouts := bump16 x.timeouts }

/-- The turn of a running line. -/
def State.turnOf (s : State) (l : Nat) : Option Turn := if (s.line l).state = .running then (s.line l).turn else none

/-- A good WAIT (R136). -/
def State.takeWait (s : State) (l : Nat) (t : Turn) : State :=
  if t.waits < 3 then s.modLine l fun x => { x with turn := some { t with waits := t.waits + 1, stage := .waiting } }
  else (s.countTimeout l).missTurn l t

/-- The checks of an up frame within a turn, in order (R138, R204): the frame as parsed, with its kind byte and its
body. -/
def checkFrame (addr : Nat) (frame : Bytes) : Option (UpFrame × Byte × Bytes) :=
  if checkByte frame ≠ 0 then none
  else
    match cutFrame frame with
    | some (a, k, body, _) =>
      if a = BitVec.ofNat 8 (0x80 + addr) then (parseUpBody k body).map fun f => (f, k, body) else none
    | none => none

/-- An up frame received within a turn (R135, R136, R138). -/
def State.takeFrame (s : State) (l : Nat) (t : Turn) (frame : Bytes) : State :=
  match checkFrame t.addr frame with
  | none => (s.countError l).missTurn l t
  | some (.wait, _, _) => s.takeWait l t
  | some (f, k, body) => s.goodTurn l t f k body

/-- The turn waits out its timeout after a change of its drop's mode (R141). -/
def Line.waitsOut (x : Line) : Bool := x.turn.any fun t => t.abandoned && decide (t.stage ≠ .sending)

/-- The up frame in reception is no turn's answer, whatever turn waits at its end (R135, R140, R141). -/
def Line.astray (x : Line) : Bool := decide (x.incoming = some .outside ∨ x.incoming = some .discarded)

/-- The up frame in reception is over: one outside a turn is an error (R140), unless a turn waits out its timeout (R141). -/
def Line.frameOver (x : Line) : Line :=
  { x with incoming := none
           errors := if x.incoming = some .outside ∧ !x.waitsOut then bump16 x.errors else x.errors }

/-- The first byte of an up frame on a RUNNING line (R135): it stops the timeout of the turn that waits; with no turn waiting
its frame is outside a turn (R140), and during the transmission of a down frame the two collide. A frame that had not ended
is over with it (log entry 37). -/
def Line.firstByte (x : Line) : Line :=
  match x.turn with
  | none => { x.frameOver with incoming := some .outside }
  | some t =>
    match t.stage with
    | .sending => { x.frameOver with incoming := some .collided }
    | .waiting => { x.frameOver with turn := some { t with stage := .receiving } }
    | .receiving => x

/-- An up frame on a line at its end: an answer, a frame outside a turn, or bytes to discard (R138, R140, R141, R124). One
that began outside a turn is no answer of the turn that waits at its end (R135). -/
def State.takeUpFrame (s : State) (line : Nat) (frame : Bytes) : State :=
  let x := s.line line
  if x.state = .running then
    let u := s.modLine line Line.frameOver
    match x.turn with
    | none => if x.astray then u else u.countError line
    | some t =>
      if x.waitsOut then u.modLine line fun y => { y with turn := some { t with stage := .waiting } }
      else if x.astray then u
      else if t.stage = .sending then u.countError line
      else u.takeFrame line t frame
  else s

/-- UP_FRAME_RECEIVED (R138). A frame that brings an UPFRAME comes before a late grant, any other after it (R173; log entry
50). -/
def execUpFrameReceived (line : Nat) (frame : Bytes) (s : State) : Host.Outcome State Fault Refusal :=
  let c := Instr.upFrameReceived line frame
  let t := (s.takeDue c).takeUpFrame line frame
  commandEnd s (if s.riser.freed && t.riser.freed then (s.settled.takeDue c).takeUpFrame line frame else t)

/-- DOWN_FRAME_SENT (R135): the answer timeout starts. -/
def execDownFrameSent (line : Nat) (s : State) : Host.Outcome State Fault Refusal :=
  run (.downFrameSent line) s fun u =>
    match u.turnOf line with
    | some t => if t.stage = .sending then u.modLine line fun x => { x with turn := some { t with stage := .waiting } } else u
    | none => u

/-- UP_FRAME_FIRST_BYTE (R135); bytes received outside RUNNING are discarded (R124). -/
def execUpFrameFirstByte (line : Nat) (s : State) : Host.Outcome State Fault Refusal :=
  run (.upFrameFirstByte line) s fun u =>
    if (u.line line).state = .running then u.modLine line Line.firstByte else u

/-- ANSWER_TIMEOUT (R135). -/
def execAnswerTimeout (line : Nat) (s : State) : Host.Outcome State Fault Refusal :=
  run (.answerTimeout line) s fun u =>
    match u.turnOf line with
    | some t => if t.stage = .waiting ∧ !t.abandoned then (u.countTimeout line).missTurn line t else u
    | none => u

/-- A frame is in reception: a turn's, or one that is no turn's answer (R135). -/
def Line.receives (x : Line) : Bool := x.incoming.isSome || x.turn.any fun t => decide (t.stage = .receiving)

/-- FRAME_END_TIMEOUT (R135, R138): a frame not ended in time is unparsable, and is taken as one of no bytes, which fails
every check. -/
def execFrameEndTimeout (line : Nat) (s : State) : Host.Outcome State Fault Refusal :=
  run (.frameEndTimeout line) s fun u => if (u.line line).receives then u.takeUpFrame line [] else u

/-- ABANDONED_TURN_END (R141). -/
def execAbandonedTurnEnd (line : Nat) (s : State) : Host.Outcome State Fault Refusal :=
  run (.abandonedTurnEnd line) s fun u =>
    match u.turnOf line with
    | some t => if t.stage ≠ .sending ∧ t.abandoned then u.endTurn line else u
    | none => u

/-! ## The walk (section 6.3) -/

/-- A drop of the probe rotation (R132). -/
def Drop.inRotation (d : Drop) : Bool := !(d.kind = .unused) && (!d.mode.served || !d.present)

/-- The next drop of a line's probe rotation: the lowest address above the cursor, else the lowest (R132). -/
def State.nextProbe (s : State) (l : Nat) : Option Nat :=
  let addrs := ((lineDrops l).filter fun c => (s.drop c).inRotation).map DropCode.addr
  match addrs.find? fun a => decide ((s.line l).cursor < a) with
  | some a => some a
  | none => addrs.head?

/-- The drop a phase gives a turn to, and whether it is a probe; none when the phase is skipped (R131). -/
def State.phaseTurn (s : State) (l : Nat) (p : Phase) : Option (Nat × Bool) :=
  match p with
  | .empty => none
  | .address a =>
    let d := s.drop { line := l, addr := a }
    if d.mode.served && d.present then some (a, false) else none
  | .probe => (s.nextProbe l).map fun a => (a, true)

/-- The answer timeout of a code, in milliseconds (R121). -/
def answerTimeout (code : Nat) : Nat := 2 ^ (code + 1)

/-- A turn starts (R134): the frame is named and handed over, and its transmission begins. -/
def State.startTurn (s : State) (l a : Nat) (probe : Bool) : State :=
  let c : DropCode := { line := l, addr := a }
  let x : State × DownFrame := if probe then s.handPoll c .probe else s.dropFrame c
  x.1.modLine l fun y =>
    { y with
      cursor := if probe then a else y.cursor
      turn := some { addr := a, probe := probe, timeout := answerTimeout y.timeoutCode, waits := 0, abandoned := false,
                     stage := .sending, frame := x.2 } }

/-- Phases taken from the pointer until one starts a turn; after 32 skips in a row the walk parks (R131, R133). -/
def State.walk (l : Nat) : Nat → State → State
  | 0, s => s.modLine l fun x => { x with walk := .parked }
  | n + 1, s =>
    let x := s.line l
    match s.phaseTurn l (x.schedule[x.pointer]?.getD .empty) with
    | some (a, probe) => s.startTurn l a probe
    | none => State.walk l n (s.modLine l fun x => { x with pointer := (x.pointer + 1) % 32 })

/-- WALK_PHASE (R131). -/
def execWalkPhase (line : Nat) (s : State) : Host.Outcome State Fault Refusal :=
  run (.walkPhase line) s fun u =>
    let x := u.line line
    if x.state = .running ∧ x.walk = .walking ∧ x.turn = none ∧ line < 4 then State.walk line 32 u else u

/-- A parked walk resumes at its pointer (R133). -/
def State.resumeWalk (s : State) (l : Nat) : State :=
  if (s.line l).walk = .parked then (s.modLine l fun x => { x with walk := .walking }).handWalk l else s

/-! ## Line states and power (section 6.2) -/

/-- A drop of a line that has left RUNNING (R130, R147, R158). -/
def State.leaveDrop (s : State) (c : DropCode) : State :=
  (s.becomeAbsent c).modDrop c fun d => { d.loseItem with miss := 0 }

/-- A line leaves RUNNING for another state (R130). The drops' PRESENCE causes are raised by ascending address (log entry
13). -/
def State.leaveRunning (s : State) (l : Nat) : State :=
  (lineDrops l).foldl State.leaveDrop
    (s.modLine l fun x => { x with turn := none, reload := false, incoming := none, walk := .walking, pointer := 0 })

/-- A line in a new state, with the effects of leaving RUNNING first when it was RUNNING (R126, R128, R129). -/
def State.setLine (s : State) (l : Nat) (st : LineState) (feed low : Bool) : State :=
  (if (s.line l).state = .running then s.leaveRunning l else s).modLine l fun x =>
    { x with state := st, feed := feed, breakLow := low }

/-- LINE_POWER on at a line (R125). -/
def State.powerOn (s : State) (l : Nat) : State :=
  if (s.line l).state = .off ∨ (s.line l).state = .fault then s.setLine l .settling true false else s

/-- LINE_POWER_ON (R125). The range of a line index is the rule's own check, after BUSY, here and in LINE_POWER_OFF and
LINE_BREAK (R183; log entry 42). -/
def execLinePowerOn (tag : Tag) (line : Nat) (s : State) : Host.Outcome State Fault Refusal :=
  let c := Instr.linePowerOn tag line
  run c s (manage .control tag c s.settled true (inRange .control tag (decide (line ≤ 3)) fun t => (t.powerOn line).reply .control tag .ok .none))

/-- LINE_POWER_OFF (R126). -/
def execLinePowerOff (tag : Tag) (line : Nat) (s : State) : Host.Outcome State Fault Refusal :=
  let c := Instr.linePowerOff tag line
  run c s (manage .control tag c s.settled true (inRange .control tag (decide (line ≤ 3)) fun t =>
    (if (t.line line).state = .off then t else t.setLine line .off false false).reply .control tag .ok .none))

/-- LINE_BREAK (R128). -/
def execLineBreak (tag : Tag) (line : Nat) (s : State) : Host.Outcome State Fault Refusal :=
  let c := Instr.lineBreak tag line
  run c s (manage .control tag c s.settled true (inRange .control tag (decide (line ≤ 3)) fun t =>
    match (t.line line).state with
    | .running => (t.setLine line .breaking true true).reply .control tag .ok .none
    | .settling | .breaking => t.reply .control tag .ok .none
    | .off | .fault => t.reply .control tag .badState .none))

/-- SETTLING_END (R127): the line is held low. -/
def execSettlingEnd (line : Nat) (s : State) : Host.Outcome State Fault Refusal :=
  run (.settlingEnd line) s fun u =>
    if (u.line line).state = .settling then u.setLine line .breaking true true else u

/-- BREAK_LOW_END (R127): the line is released and quiet. -/
def execBreakLowEnd (line : Nat) (s : State) : Host.Outcome State Fault Refusal :=
  run (.breakLowEnd line) s fun u =>
    if (u.line line).state = .breaking ∧ (u.line line).breakLow then u.modLine line fun x => { x with breakLow := false }
    else u

/-- BREAK_QUIET_END (R127): the line goes to RUNNING with its walk set up. -/
def execBreakQuietEnd (line : Nat) (s : State) : Host.Outcome State Fault Refusal :=
  run (.breakQuietEnd line) s fun u =>
    if (u.line line).state = .breaking ∧ !(u.line line).breakLow then
      ((u.modLine line fun x =>
        { x with state := .running, pointer := 0, walk := .walking, cursor := 0, turn := none, reload := false
                 incoming := none }).raise (lineLatch line) .running).handWalk line
    else u

/-- POWER_FAULT (R129): taken while the feed is on; its cause is raised after the drops' PRESENCE (log entry 13). -/
def execPowerFault (line : Nat) (s : State) : Host.Outcome State Fault Refusal :=
  run (.powerFault line) s fun u =>
    match (u.line line).state with
    | .settling | .breaking | .running => (u.setLine line .fault false false).raise (lineLatch line) .powerFault
    | .off | .fault => u

/-! ## DROP_MODE (section 7.3) -/

/-- The turn of a drop is abandoned by a change of its mode (R141, R150). -/
def State.abandonTurn (s : State) (c : DropCode) : State :=
  match s.turnOf c.line with
  | some t =>
    if t.addr = c.addr then s.modLine c.line fun x => { x with turn := some { t with abandoned := true } } else s
  | none => s

/-- The queue and flags of a drop in a new mode (R150); the in-flight item is dealt with after them (R158; log entry
24). -/
def Drop.inMode (d : Drop) (m : DropMode) (turn : Bool) : Drop :=
  let e := match m with
    | .isolated =>
      { d with mode := m, answer := none, stale := false, fifo := []
               droppedItems := satAdd 65535 d.droppedItems d.fifo.length }
    | .excluded => { d with mode := m }
    | .shadow | .normal => { d with mode := m, stale := if d.kind = .roomPanel then true else d.stale }
  if turn then e.loseItem else e

/-- The pantry link's part of a mode change (R98, R100, R150). -/
def State.linkForMode (s : State) (c : DropCode) (m : DropMode) : State :=
  match s.servedPantry c with
  | none => s
  | some p =>
    match m with
    | .isolated => (s.modPantry p fun x => x.leaveUp .down).failLink p
    | .excluded | .shadow => s.linkDown p
    | .normal => if (s.drop c).present then s.linkRise p else s

/-- A change of mode (R150). -/
def State.changeMode (s : State) (c : DropCode) (m : DropMode) : State :=
  let turn : Bool := match s.turnOf c.line with
    | some t => t.addr = c.addr
    | none => false
  (((s.modDrop c fun d => d.inMode m turn).linkForMode c m).abandonTurn c).resumeWalk c.line

/-- The checks of a DROP_MODE to NORMAL or SHADOW (R149). -/
def State.modeCheck (s : State) (c : DropCode) (m : DropMode) : Option Code :=
  let d := s.drop c
  if !m.served then none
  else if d.kind = .unused then some .badState
  else if (s.line c.line).state ≠ .running ∨ !d.present then some .notPresent
  else if d.reported ≠ some d.kind then some .kindMismatch
  else none

/-- DROP_MODE (R149, R150). -/
def execDropMode (tag : Tag) (drop : DropCode) (mode : Nat) (s : State) : Host.Outcome State Fault Refusal :=
  let c := Instr.dropMode tag drop mode
  run c s (manage .control tag c s.settled (dropModeOf mode).isSome (inRange .control tag (validDrop drop) fun t =>
    match dropModeOf mode with
    | none => t.reply .control tag .badMessage .none
    | some m =>
      match t.modeCheck drop m with
      | some code => t.reply .control tag code .none
      | none =>
        (if (t.drop drop).mode = m then t.resumeWalk drop.line else t.changeMode drop m).reply .control tag .ok .none))

end Sys2Proof.Machine
end

