-- ==== Sys2Proof/Machine/Tables.lean ====
section
/-! DEFINITION. The LOADs (spec/09 section 9.2, spec/10): each table's checks and effect, shared by the requests of the
server and the records of the boot image. -/

namespace Sys2Proof.Machine

/-- A LOAD taken, with its clamped flag, or refused. -/
abbrev Loaded := Except Code (State × Bool)

/-- The floor record (R167). A message held at the head of the receive buffer keeps its claim (R174). -/
def State.loadFloorRecord (s : State) (entry : Nat) (r : FloorRecord) : Loaded :=
  if entry ≠ 0 ∨ !floorRecordOk r then .error .badTable
  else
    let held := s.headNeedsReply && s.freeEntries = 0
    .ok ({ s with floor := r, riser := { s.riser with replyHeld := s.riser.replyHeld || held } }, false)

/-- A room's records that keep its code: DUE or IN_USE, or BOOKED in a day list (R2). -/
def State.holdsCode (s : State) (room : Nat) : Bool :=
  ((s.room room).today ++ (s.room room).next).any fun i => ((s.res i).map fun r => r.state.live).getD false

/-- A Room Map entry (R1, R2). The BAD_TABLE check of a foreign building or floor comes before the OK of a code the entry
already holds (log entry 45). -/
def State.loadRoomMap (s : State) (entry : Nat) (code : Option RoomCode) : Loaded :=
  let taken : Bool := match code with
    | some c => (List.range 48).any fun i => decide (i ≠ entry) && decide (s.roomMap[i]? = some (some c))
    | none => false
  let foreign : Bool := match code with
    | some c => !(c.building = s.floor.building && c.floor = s.floor.floor && decide (c.room ≤ 63))
    | none => false
  if 47 < entry ∨ foreign ∨ taken then .error .badTable
  else if s.roomMap[entry]? = some code then .ok (s, false)
  else if s.holdsCode entry then .error .badState
  else .ok ({ s with roomMap := updAt s.roomMap entry fun _ => code }.markRoom entry, false)

/-- A Room Class entry (R3, R4): the displays of the rooms of the class are marked stale (R159). -/
def State.loadRoomClass (s : State) (entry : Nat) (f : RoomClassLoad) : Loaded :=
  match roomClassOf f with
  | none => .error .badTable
  | some c =>
    if 7 < entry then .error .badTable
    else
      let t := { s with classes := updAt s.classes entry fun _ => c }
      .ok ((allRooms.filter fun r => (s.room r).cls = entry).foldl State.markRoom t, false)

/-- A Room Table entry (R5): a change of class marks the room's displays stale (R159). -/
def State.loadRoomTable (s : State) (entry cls : Nat) : Loaded :=
  if 47 < entry ∨ 7 < cls then .error .badTable
  else if (s.room entry).cls = cls then .ok (s, false)
  else .ok ((s.modRoom entry fun e => { e with cls := cls }).markRoom entry, false)

/-- The drops other than one that satisfy a test. -/
def State.others (s : State) (c : DropCode) (f : Drop → Bool) : Nat :=
  (allDrops.filter fun x => !(x = c) && f (s.drop x)).length

/-- The BAD_TABLE checks of a Drop Table entry (R144). -/
def State.dropTableBad (s : State) (c : DropCode) (k : DropKind) (f : DropLoad) : Bool :=
  (match f.room with
    | some r => !(k = .roomPanel || k = .roomSensor) || decide (47 < r) ||
        decide ((if k = .roomPanel then 2 else 1) ≤ s.others c fun d => d.kind = k && d.room = some r)
    | none => false) ||
  (match f.pantry with
    | some p => !(k = .pantry) || decide (7 < p) || decide (1 ≤ s.others c fun d => d.kind = .pantry && d.pantry = some p)
    | none => k = .pantry)

/-- The displays of the panels bound to a room marked stale, if there is a room. -/
def State.markOpt (s : State) : Option Nat → State
  | some r => s.markRoom r
  | none => s

/-- A Drop Table entry (R144, R145). -/
def State.loadDropTable (s : State) (c : DropCode) (f : DropLoad) : Loaded :=
  match dropKindOf f.kind with
  | none => .error .badTable
  | some k =>
    if !validDrop c || s.dropTableBad c k f then .error .badTable
    else
      let d := s.drop c
      if d.kind = k ∧ d.room = f.room ∧ d.pantry = f.pantry then .ok (s.resumeWalk c.line, false)
      else if d.mode ≠ .isolated then .error .badState
      else
        let t := (s.markOpt d.room).modDrop c fun d => { d with kind := k, room := f.room, pantry := f.pantry }
        let t := t.markOpt f.room
        let t := if k ≠ .unused ∧ d.reported ≠ none ∧ d.reported ≠ some k then t.raise (dropLatch c) .kindMismatch else t
        .ok (t.resumeWalk c.line, false)

/-- A Line config entry (R121, R122); address 0 is taken as EMPTY, which sets the clamped flag (R184). -/
def State.loadLineConfig (s : State) (line : Nat) (f : LineLoad) : Loaded :=
  if 3 < line ∨ 3 < f.timeoutCode ∨ f.phases.any (fun n => (phaseOf n).isNone) then .error .badTable
  else
    let phases : Vector Phase 32 := Vector.ofFn fun i => ((f.phases[i.val]?).bind phaseOf).getD .empty
    let t := s.modLine line fun x =>
      { x with
        timeoutCode := f.timeoutCode
        powerAtStart := f.powerAtStart
        schedule := phases
        pointer := if x.turn.isSome then x.pointer else 0
        reload := x.turn.isSome }
    .ok (t.resumeWalk line, f.phases.contains 0x20)

/-- A Pantry config entry (R88): a lead above 24 is set to 24, which sets the clamped flag (R184). A DOWN link that now
has a bound drop present and NORMAL goes to SYNCING (R98). -/
def State.loadPantryConfig (s : State) (p : Nat) (f : PantryLoad) : Loaded :=
  let badDrop : Bool := match f.drop with
    | some c => !validDrop c || (List.range 8).any fun q => decide (q ≠ p) && decide ((s.pantry q).drop = some c)
    | none => false
  if 7 < p ∨ badDrop ∨ 3 < f.timeoutCode then .error .badTable
  else if (s.pantry p).drop ≠ f.drop ∧ (s.pantry p).link ≠ .down then .error .badState
  else
    let t := s.modPantry p fun x => { x with drop := f.drop, lead := min 24 f.lead, timeoutCode := f.timeoutCode }
    let t := match t.servingDrop p with
      | some c => if (t.drop c).present && (t.drop c).mode = .normal then t.linkRise p else t
      | none => t
    .ok (t, decide (24 < f.lead))

/-- Any LOAD, as a boot record brings it (R184, R199). -/
def State.load (s : State) : LoadReq → Loaded
  | .floorRecord n r => s.loadFloorRecord n r
  | .roomMap n c => s.loadRoomMap n c
  | .roomClass n f => s.loadRoomClass n f
  | .roomTable n c => s.loadRoomTable n c
  | .dropTable d f => s.loadDropTable d f
  | .lineConfig n f => s.loadLineConfig n f
  | .pantryConfig n f => s.loadPantryConfig n f

/-- A LOAD's reply (R184). -/
def State.replyLoad (s : State) (tag : Tag) (table entry : Nat) (x : Loaded) : State :=
  match x with
  | .ok (t, clamped) => t.reply .load tag .ok (.loaded table entry clamped)
  | .error code => s.reply .load tag code .none

/-- LOAD_FLOOR_RECORD (R167, R184). -/
def execLoadFloorRecord (tag : Tag) (entry : Nat) (rec : FloorRecord) (s : State) : Host.Outcome State Fault Refusal :=
  let c := Instr.loadFloorRecord tag entry rec
  run c s (manage .load tag c s.settled true fun t => t.replyLoad tag 0 entry (t.loadFloorRecord entry rec))

/-- LOAD_ROOM_MAP (R1, R2, R184): the Booking Engine is among its owners, and takes it outside a catch-up (R18). -/
def execLoadRoomMap (tag : Tag) (entry : Nat) (code : Option RoomCode) (s : State) : Host.Outcome State Fault Refusal :=
  let c := Instr.loadRoomMap tag entry code
  run c s (manage .load tag c s.settled true (afterCatchUp c c s.settled fun t => t.replyLoad tag 1 entry (t.loadRoomMap entry code)))

/-- LOAD_ROOM_CLASS (R3, R184). -/
def execLoadRoomClass (tag : Tag) (entry : Nat) (fields : RoomClassLoad) (s : State) :
    Host.Outcome State Fault Refusal :=
  let c := Instr.loadRoomClass tag entry fields
  run c s (manage .load tag c s.settled true fun t => t.replyLoad tag 2 entry (t.loadRoomClass entry fields))

/-- LOAD_ROOM_TABLE (R5, R184): its owner is the Booking Engine, which takes it outside a catch-up (R18). -/
def execLoadRoomTable (tag : Tag) (entry cls : Nat) (s : State) : Host.Outcome State Fault Refusal :=
  let c := Instr.loadRoomTable tag entry cls
  run c s (manage .load tag c s.settled true (afterCatchUp c c s.settled fun t => t.replyLoad tag 3 entry (t.loadRoomTable entry cls)))

/-- LOAD_DROP_TABLE (R144, R145, R184). -/
def execLoadDropTable (tag : Tag) (drop : DropCode) (fields : DropLoad) (s : State) :
    Host.Outcome State Fault Refusal :=
  let c := Instr.loadDropTable tag drop fields
  run c s (manage .load tag c s.settled true fun t => t.replyLoad tag 4 (dropByte drop) (t.loadDropTable drop fields))

/-- LOAD_LINE_CONFIG (R121, R122, R184): an entry of other than 32 phases has not the length of its table. -/
def execLoadLineConfig (tag : Tag) (line : Nat) (fields : LineLoad) (s : State) : Host.Outcome State Fault Refusal :=
  let c := Instr.loadLineConfig tag line fields
  run c s (manage .load tag c s.settled (decide (fields.phases.length = 32)) fun t =>
    t.replyLoad tag 5 line (t.loadLineConfig line fields))

/-- LOAD_PANTRY_CONFIG (R88, R184). -/
def execLoadPantryConfig (tag : Tag) (pantry : Nat) (fields : PantryLoad) (s : State) :
    Host.Outcome State Fault Refusal :=
  let c := Instr.loadPantryConfig tag pantry fields
  run c s (manage .load tag c s.settled true fun t => t.replyLoad tag 6 pantry (t.loadPantryConfig pantry fields))

end Sys2Proof.Machine
end

