-- ==== Sys2Proof/Machine/Reads.lean ====
section
/-! DEFINITION. The READs (spec/09 section 9.3) and the dirty-record exchange (spec/02 section 2.5). -/

namespace Sys2Proof.Machine

/-- A READ's OK reply with its body. -/
def State.readOk (s : State) (tag : Tag) (b : Body) : State := s.reply .read tag .ok b

/-- READ_FLOOR_RECORD (R185). -/
def execReadFloorRecord (tag : Tag) (clear : Bool) (s : State) : Host.Outcome State Fault Refusal :=
  let c := Instr.readFloorRecord tag clear
  run c s (manage .read tag c s.settled true fun t => t.readOk tag (.floorRecord t.floor))

/-- READ_ROOM_MAP (R185). -/
def execReadRoomMap (tag : Tag) (clear : Bool) (entry : Nat) (s : State) : Host.Outcome State Fault Refusal :=
  let c := Instr.readRoomMap tag clear entry
  run c s (manage .read tag c s.settled true (inRange .read tag (decide (entry ≤ 47)) fun t => t.readOk tag (.roomMap (t.roomMap[entry]?.getD none))))

/-- READ_ROOM_CLASS (R185). -/
def execReadRoomClass (tag : Tag) (clear : Bool) (entry : Nat) (s : State) : Host.Outcome State Fault Refusal :=
  let c := Instr.readRoomClass tag clear entry
  run c s (manage .read tag c s.settled true (inRange .read tag (decide (entry ≤ 7)) fun t =>
    t.readOk tag (.roomClass (t.classes[entry]?.getD RoomClass.reset))))

/-- READ_ROOM_TABLE (R5, R185). -/
def execReadRoomTable (tag : Tag) (clear : Bool) (entry : Nat) (s : State) : Host.Outcome State Fault Refusal :=
  let c := Instr.readRoomTable tag clear entry
  run c s (manage .read tag c s.settled true (inRange .read tag (decide (entry ≤ 47)) fun t =>
    t.readOk tag (.roomTable (t.room entry).cls (t.boundPanels entry) (t.boundSensor entry) (t.room entry).service)))

/-- READ_PANTRY_CONFIG (R185). A pantry above 7 is among the encoded ranges of R203, here and in READ_PANTRY_LINK. -/
def execReadPantryConfig (tag : Tag) (clear : Bool) (entry : Nat) (s : State) : Host.Outcome State Fault Refusal :=
  let c := Instr.readPantryConfig tag clear entry
  run c s (manage .read tag c s.settled (decide (entry ≤ 7)) fun t =>
    let p := t.pantry entry
    t.readOk tag (.pantryConfig p.drop p.lead p.timeoutCode))

/-- READ_RESERVATION (R36), which sees the record's day list (R15; log entry 31). -/
def execReadReservation (tag : Tag) (clear : Bool) (index : Nat) (s : State) : Host.Outcome State Fault Refusal :=
  let c := Instr.readReservation tag clear index
  run c s (manage .read tag c s.settled true (afterDay c s.settled
    (inRange .read tag (decide (index ≤ 767)) fun t =>
      match t.res index with
      | some r => t.readOk tag (.reservation index r)
      | none => t.reply .read tag .badState .none)))

/-- READ_ORDER (R91). -/
def execReadOrder (tag : Tag) (clear : Bool) (id : OrderId) (s : State) : Host.Outcome State Fault Refusal :=
  let c := Instr.readOrder tag clear id
  run c s (manage .read tag c s.settled true fun t =>
    match t.order id with
    | some o => t.readOk tag (.order o)
    | none => t.reply .read tag .notFound .none)

/-- READ_EVIDENCE (R72). -/
def execReadEvidence (tag : Tag) (clear : Bool) (room : Nat) (s : State) : Host.Outcome State Fault Refusal :=
  let c := Instr.readEvidence tag clear room
  run c s (manage .read tag c s.settled true (inRange .read tag (decide (room ≤ 47)) fun t => t.readOk tag (.evidence (t.ev room))))

/-- READ_DROP (R166): a room panel's display is composed as the READ is taken, from the clock and the TODAY list (R15; log
entry 31). -/
def execReadDrop (tag : Tag) (clear : Bool) (drop : DropCode) (s : State) : Host.Outcome State Fault Refusal :=
  let c := Instr.readDrop tag clear drop
  run c s (manage .read tag c s.settled true (inRange .read tag (validDrop drop) fun t =>
    let d := t.drop drop
    let give (t : State) (shown : Option Display) : State :=
      let u := t.readOk tag (.drop drop d shown)
      if clear then u.modDrop drop fun d => { d with droppedItems := 0, ignoredFrames := 0 } else u
    if d.kind = .roomPanel then afterDay c s.settled (fun t => give t (some (t.display d.room))) t else give t none))

/-- READ_LINE (R143). -/
def execReadLine (tag : Tag) (clear : Bool) (line : Nat) (s : State) : Host.Outcome State Fault Refusal :=
  let c := Instr.readLine tag clear line
  run c s (manage .read tag c s.settled true (inRange .read tag (decide (line ≤ 3)) fun t =>
    let u := t.readOk tag (.line (t.line line))
    if clear then u.modLine line fun x => { x with errors := 0, timeouts := 0 } else u))

/-- READ_PANTRY_LINK (R120). -/
def execReadPantryLink (tag : Tag) (clear : Bool) (pantry : Nat) (s : State) : Host.Outcome State Fault Refusal :=
  let c := Instr.readPantryLink tag clear pantry
  run c s (manage .read tag c s.settled (decide (pantry ≤ 7)) fun t =>
    let u := t.readOk tag (.pantryLink (t.pantry pantry))
    if clear then u.modPantry pantry fun x => { x with staleAcks := 0, creditRange := 0 } else u)

/-- The riser port record as it stands, beside the floor record (R182). -/
def State.riserReading (s : State) : RiserReading :=
  let r := s.riser
  { online := r.online, timer := r.offlineTimer, receive := r.receive.length, onwardQueue := r.onwardQueue.length,
    upwardQueue := r.upwardQueue.length, localQueue := r.localQueue.length, reservations := r.reservations.length,
    replyHeld := r.replyHeld || (s.headNeedsReply && s.freeEntries = 0), eventClaim := !s.unsent.isEmpty,
    grantEvent := r.grantEvent, shareOnward := r.shareOnward, shareCount := r.shareCount,
    counters := [r.uplinkForeign, r.onwardForeign, r.malformed, r.receiveDrops, r.onwardDrops, r.upwardDrops,
                 r.upframeDrops] }

/-- The seven counters of R181 set to 0. -/
def Riser.clearCounters (r : Riser) : Riser :=
  { r with uplinkForeign := 0, onwardForeign := 0, malformed := 0, receiveDrops := 0, onwardDrops := 0, upwardDrops := 0
           upframeDrops := 0 }

/-- READ_RISER_PORT (R182). -/
def execReadRiserPort (tag : Tag) (clear : Bool) (s : State) : Host.Outcome State Fault Refusal :=
  let c := Instr.readRiserPort tag clear
  run c s (manage .read tag c s.settled true fun t =>
    let u := t.readOk tag (.riserPort t.floor t.riserReading)
    if clear then u.modRiser Riser.clearCounters else u)

/-- READ_FLOOR_CLOCK (R186). -/
def execReadFloorClock (tag : Tag) (clear : Bool) (s : State) : Host.Outcome State Fault Refusal :=
  let c := Instr.readFloorClock tag clear
  run c s (manage .read tag c s.settled true fun t => t.readOk tag (.floorClock t.clock t.curSlot t.clockBusy))

/-- READ_EVENT_LATCH (R186): the floor latch gives its two counts as well. -/
def execReadEventLatch (tag : Tag) (clear : Bool) (latch : Nat) (s : State) : Host.Outcome State Fault Refusal :=
  let c := Instr.readEventLatch tag clear latch
  run c s (manage .read tag c s.settled true (inRange .read tag (decide (latch ≤ 120)) fun t =>
    t.readOk tag (.eventLatch (t.latch latch)
      (if latch = floorLatch then some (t.flushCount, t.discardCount) else none))))

/-- READ_EVENT_SUMMARY (R186). -/
def execReadEventSummary (tag : Tag) (clear : Bool) (s : State) : Host.Outcome State Fault Refusal :=
  let c := Instr.readEventSummary tag clear
  run c s (manage .read tag c s.settled true fun t =>
    t.readOk tag (.eventSummary ((List.range 121).filter fun i => (t.latch i).isSet) t.unsent))

/-- READ_BOOT_STATUS (R202). -/
def execReadBootStatus (tag : Tag) (clear : Bool) (s : State) : Host.Outcome State Fault Refusal :=
  let c := Instr.readBootStatus tag clear
  run c s (manage .read tag c s.settled true fun t => t.readOk tag (.bootStatus t.boot))

/-! ## The dirty-record exchange -/

/-- The dirty records at or above a cursor, ascending (R34). -/
def State.dirtyFrom (s : State) (cursor : Nat) : List DirtyEntry :=
  (List.range 768).filterMap fun i =>
    match s.res i with
    | some r =>
      if cursor ≤ i ∧ r.dirty then some { index := i, version := r.version, room := r.room, day := r.day, state := r.state }
      else none
    | none => none

/-- The body of a LIST_DIRTY reply: up to 16 entries and the next cursor, none for END (R34). -/
def State.dirtyList (s : State) (cursor : Nat) : Body :=
  let all := s.dirtyFrom cursor
  let listed := all.take 16
  .dirtyList listed (if 16 < all.length then listed.getLast?.map fun e => e.index + 1 else none)

/-- LIST_DIRTY (R34), which sees each record's day list (R15; log entry 31). -/
def execListDirty (tag : Tag) (cursor : Nat) (s : State) : Host.Outcome State Fault Refusal :=
  let c := Instr.listDirty tag cursor
  run c s (manage .listDirty tag c s.settled (decide (cursor ≤ 65535)) (afterDay c s.settled
    (inRange .listDirty tag (decide (cursor ≤ 767)) fun t => t.reply .listDirty tag .ok (t.dirtyList cursor))))

/-- MARK_CLEAN (R35). -/
def execMarkClean (tag : Tag) (index : Nat) (version : Byte) (s : State) : Host.Outcome State Fault Refusal :=
  let c := Instr.markClean tag index version
  run c s (manage .markClean tag c s.settled (decide (index ≤ 65535)) (inRange .markClean tag (decide (index ≤ 767)) fun t =>
    match t.res index with
    | none => t.reply .markClean tag .badState .none
    | some r =>
      if !r.dirty then t.reply .markClean tag .badState .none
      else if r.version = version then
        (t.modRes index fun r => { r with dirty := false }).reply .markClean tag .ok .none
      else t.reply .markClean tag .staleVersion (.version r.version)))

end Sys2Proof.Machine
end

