-- ==== Sys2Proof/Machine/Boot.lean ====
section
/-! DEFINITION. Reset, the boot load (spec/10), BOOT_WRITE, RESTART and CLEAR (spec/09). -/

namespace Sys2Proof.Machine

/-! ## Reset -/

/-- The boot memory when a reset cuts off a page write: the page holds what the memory made of it (R189, R190; log entry
17). -/
def State.cutMemory (s : State) : List Host.Cell :=
  match s.boot.write with
  | some w => if w.readback then s.bootMem else spoilPage s.bootMem (pageBase (w.offset + w.written)) s.freeCount
  | none => s.bootMem

/-- The chip-wide reset: every block takes its reset state (R197). The commands that wait, the boot memory, the port
links and the reset input are outside it. -/
def State.chipReset (s : State) : State :=
  { State.reset with
    pending := s.pending
    freeCount := s.freeCount + 1
    resetLow := s.resetLow
    riser := { Riser.reset with uplinkUp := s.riser.uplinkUp, onwardUp := s.riser.onwardUp }
    bootMem := s.cutMemory }

/-- POWER_ON (R197). -/
def execPowerOn (s : State) : Host.Outcome State Fault Refusal := .next s.chipReset

/-- RESET_INPUT (R197): the release of the reset input. -/
def execResetInput (s : State) : Host.Outcome State Fault Refusal := .next { s.chipReset with resetLow := false }

/-- RESET_INPUT_HELD_LOW (R197). -/
def execResetInputHeldLow (s : State) : Host.Outcome State Fault Refusal := .next { s.chipReset with resetLow := true }

/-! ## The boot load -/

/-- A room whose class has closed at start set goes to CLOSED (R201 step 2). -/
def State.closeAtStart (s : State) (room : Nat) : State :=
  if (s.classOf room).closedAtStart then s.setService room .closed else s

/-- A line with power at start goes to SETTLING (R201 step 3). -/
def State.powerAtStart (s : State) (l : Nat) : State := if (s.line l).powerAtStart then s.powerOn l else s

/-- The cause of a load's end (R201 step 6). -/
def LoadState.cause : LoadState → Cause
  | .partly => .bootPartial
  | .blank => .bootBlank
  | _ => .bootDone

/-- The end of the boot load (R201). -/
def State.endLoad (s : State) (blank : Option BlankReason) : State :=
  let result : LoadState :=
    if blank.isSome then .blank else if s.boot.skipped = 0 then .done else .partly
  let t := s.modBoot fun b => { b with load := result, blank := blank, phase := .idle }
  let t := (List.range 4).foldl State.powerAtStart (allRooms.foldl State.closeAtStart t)
  let t := t.modRiser fun r => { r with offlineTimer := some t.floor.offlineTimeout, offlineCuts := 0 }
  t.raise floorLatch result.cause

/-- A record skipped at its offset (R199). -/
def State.skip (s : State) (offset : Nat) (cause : SkipCause) : State :=
  s.modBoot fun b =>
    { b with skipped := bump16 b.skipped, firstSkip := match b.firstSkip with
        | some x => some x
        | none => some (offset, cause) }

/-- A record taken by its owner, or skipped (R199 step 4). -/
def State.bootLoad (s : State) (offset : Nat) (r : LoadReq) (refused : SkipCause) : State :=
  match s.load r with
  | .ok (t, clamped) =>
    t.modBoot fun b =>
      { b with applied := bump16 b.applied, clamped := if clamped then bump16 b.clamped else b.clamped }
  | .error _ => s.skip offset refused

/-- A record's body dealt with (R199 steps 2 to 4). `first` marks the image's first record. -/
def State.dealRecord (s : State) (offset : Nat) (first : Bool) (body : Bytes) : State :=
  match parseLoad body with
  | none => s.skip offset .badRecord
  | some (.floorRecord n r) =>
    s.bootLoad offset (.floorRecord n r) (if first then .noFloorRecord else .badTable)
  | some r => (if first then s.skip offset .noFloorRecord else s).bootLoad offset r .badTable

/-- The load goes on at an offset, or ends at the end of the image. -/
def State.nextRecord (s : State) (offset limit : Nat) : State :=
  if limit ≤ offset then s.endLoad none else s.modBoot fun b => { b with phase := .records offset limit false }

/-- BOOT_HEADER_READ (R198). -/
def execBootHeaderRead (s : State) : Host.Outcome State Fault Refusal :=
  run .bootHeaderRead s fun t =>
    if t.boot.phase = .header then
      let len := rd16 (memRead t.bootMem 2) (memRead t.bootMem 3)
      if memRead t.bootMem 0 ≠ 0xE4 ∨ memRead t.bootMem 1 ≠ 0x60 then t.endLoad (some .badSignature)
      else if 8188 < len then t.endLoad (some .badLength)
      else if len = 0 then (t.skip 4 .noFloorRecord).endLoad none
      else t.modBoot fun b => { b with phase := .records 4 (4 + len) true }
    else t

/-- BOOT_RECORD_READ (R199). -/
def execBootRecordRead (s : State) : Host.Outcome State Fault Refusal :=
  run .bootRecordRead s fun t =>
    match t.boot.phase with
    | .records offset limit first =>
      let len := (memRead t.bootMem offset).toNat
      if len = 0 then (if first then t.skip offset .noFloorRecord else t).endLoad none
      else if limit < offset + 1 + len then (t.skip offset .truncated).endLoad none
      else (t.dealRecord offset first (memReadRun t.bootMem (offset + 1) len)).nextRecord (offset + 1 + len) limit
    | _ => t

/-- BOOT_MEMORY_TIMEOUT (R198, R199). -/
def execBootMemoryTimeout (s : State) : Host.Outcome State Fault Refusal :=
  run .bootMemoryTimeout s fun t =>
    match t.boot.phase with
    | .header => t.endLoad (some .noMemory)
    | .records offset _ _ => (t.skip offset .memoryFault).endLoad none
    | .idle => t

/-! ## BOOT_WRITE (spec/09 section 9.5) -/

/-- BOOT_WRITE (R188). A run above 64 bytes is a fault of form (R203), an empty run or one past the memory's end one of the
rule (log entry 42). -/
def execBootWrite (tag : Tag) (offset : Nat) (bytes : Bytes) (s : State) : Host.Outcome State Fault Refusal :=
  let c := Instr.bootWrite tag offset bytes
  run c s (manage .bootWrite tag c s.settled (decide (bytes.length ≤ 64))
    (inRange .bootWrite tag (decide (1 ≤ bytes.length) && decide (offset + bytes.length ≤ 8192)) fun t =>
      if t.boot.write.isSome then t.reply .bootWrite tag .busy .none
      else t.modBoot fun b =>
        { b with write := some { tag := tag, offset := offset, run := bytes, written := 0, readback := false } }))

/-- The write in flight ends with its reply (R189). -/
def State.endWrite (s : State) (w : Write) (code : Code) (body : Body) : State :=
  (s.modBoot fun b => { b with write := none }).reply .bootWrite w.tag code body

/-- BOOT_PAGE_WRITE_DONE (R189): the page holds its bytes; after the last page the run is read back. -/
def execBootPageWriteDone (s : State) : Host.Outcome State Fault Refusal :=
  run .bootPageWriteDone s fun t =>
    match t.boot.write with
    | some w =>
      if w.readback then t
      else
        let n := w.written + w.chunk.length
        { t with
          bootMem := memWriteRun t.bootMem (w.offset + w.written) w.chunk
          boot := { t.boot with write := some { w with written := n, readback := decide (w.run.length ≤ n) } } }
    | none => t

/-- BOOT_WRITE_ACK_TIMEOUT (R189): the bytes of the faulting page are as the memory left them (log entries 16 and 17). It
is an event of a page write alone: a memory that does not acknowledge during the read-back shows as bytes missing from
BOOT_READBACK_DONE (log entry 48). -/
def execBootWriteAckTimeout (s : State) : Host.Outcome State Fault Refusal :=
  run .bootWriteAckTimeout s fun t =>
    match t.boot.write with
    | some w =>
      if w.readback then t
      else
        let at_ := w.offset + w.written
        { t with bootMem := spoilPage t.bootMem (pageBase at_) t.freeCount, freeCount := t.freeCount + 1 }.endWrite w
          .memoryFault (.offset at_)
    | none => t

/-- The first place where the bytes read back differ from the run (R189); a byte not read back differs (log entry 48). -/
def firstDiff (w back : Bytes) : Option Nat := (List.range w.length).find? fun i => decide (w[i]? ≠ back[i]?)

/-- BOOT_READBACK_DONE (R189): the memory holds the bytes it gave back. -/
def execBootReadbackDone (bytes : Bytes) (s : State) : Host.Outcome State Fault Refusal :=
  run (.bootReadbackDone bytes) s fun t =>
    match t.boot.write with
    | some w =>
      if w.readback then
        let u := { t with bootMem := memWriteRun t.bootMem w.offset (bytes.take w.run.length) }
        match firstDiff w.run bytes with
        | none => u.endWrite w .ok .none
        | some i => u.endWrite w .memoryFault (.offset (w.offset + i))
      else t
    | none => t

/-! ## RESTART (R190) -/

/-- RESTART (R190). It has no layout in chapter 11, so no check of form (log entry 40). -/
def execRestart (tag : Tag) (s : State) : Host.Outcome State Fault Refusal :=
  let c := Instr.restart tag
  run c s (manage .restart tag c s.settled true fun t =>
    { t.reply .restart tag .ok .none with restart := some tag })

/-- RESTART_TIMEOUT (R190): the restart begins. -/
def execRestartTimeout (s : State) : Host.Outcome State Fault Refusal :=
  run .restartTimeout s fun t => if t.restart.isSome then t.chipReset else t

/-! ## CLEAR (R195) -/

/-- CLEAR (R195). The EVENT of a reissued latch is placed before the CLEAR's own reply (log entry 47). -/
def execClear (tag : Tag) (latch : Nat) (s : State) : Host.Outcome State Fault Refusal :=
  let c := Instr.clear tag latch
  run c s (manage .clear tag c s.settled (decide (latch ≤ 255)) (inRange .clear tag (decide (latch ≤ 120)) fun t =>
    let l := t.latch latch
    if l.isSet && l.unsent then t.reply .clear tag .badState .none
    else
      let u := if l.isSet then t.clearLatch latch else t
      u.reply .clear tag .ok (.cleared (u.latch latch).isSet (u.latch latch).causes)))

/-! ## Frames, routing and transmissions (spec/08) -/

/-- UPLINK_ARRIVAL (R169). -/
def execUplinkArrival (typeValue : Nat) (payload : Bytes) (s : State) : Host.Outcome State Fault Refusal :=
  run (.uplinkArrival typeValue payload) s fun t =>
    if typeValue ≠ t.floor.riserType then t.modRiser fun r => { r with uplinkForeign := bump16 r.uplinkForeign }
    else
      match parseMessage payload with
      | none => t.modRiser fun r => { r with malformed := bump16 r.malformed }
      | some m =>
        if m.kind.upward then t.modRiser fun r => { r with malformed := bump16 r.malformed }
        else
          let u := t.showTimer m.dest
          if u.riser.receive.length < 8 then
            (u.modRiser fun r => { r with receive := r.receive ++ [payload] }).handOnce .routeMessage
          else u.modRiser fun r => { r with receiveDrops := bump16 r.receiveDrops }

/-- ONWARD_ARRIVAL (R169). -/
def execOnwardArrival (typeValue : Nat) (payload : Bytes) (s : State) : Host.Outcome State Fault Refusal :=
  run (.onwardArrival typeValue payload) s fun t =>
    if typeValue ≠ t.floor.riserType then t.modRiser fun r => { r with onwardForeign := bump16 r.onwardForeign }
    else
      match parseMessage payload with
      | none => t.modRiser fun r => { r with malformed := bump16 r.malformed }
      | some _ =>
        if t.riser.upwardQueue.length < 16 then t.modRiser fun r => { r with upwardQueue := r.upwardQueue ++ [payload] }
        else t.modRiser fun r => { r with upwardDrops := bump16 r.upwardDrops }

/-- ROUTE_MESSAGE (R170, R172). One that finds a late grant takes that (R174; log entry 50). -/
def execRouteMessage (s : State) : Host.Outcome State Fault Refusal :=
  commandEnd s (if s.riser.freed then s.settled else (s.takeDue .routeMessage).tryRoute)

/-- The message in transmission is the reply of the RESTART that waits (R190). -/
def State.restartReplySent (s : State) : Bool :=
  match s.riser.uplinkTx, s.restart with
  | some (.own (.reply _ _ tag .restart .ok _)), some t => decide (tag = t)
  | _, _ => false

/-- UPLINK_TRANSMIT_END (R177, R190). -/
def execUplinkTransmitEnd (s : State) : Host.Outcome State Fault Refusal :=
  run .uplinkTransmitEnd s fun t =>
    if t.restartReplySent then t.chipReset else t.modRiser fun r => { r with uplinkTx := none }

/-- ONWARD_TRANSMIT_END (R175). -/
def execOnwardTransmitEnd (s : State) : Host.Outcome State Fault Refusal :=
  run .onwardTransmitEnd s fun t => t.modRiser fun r => { r with onwardTx := none }

/-- UPLINK_LINK_CHANGE (R176); the link is an input, seen also while the part is held in reset (log entry 19). -/
def execUplinkLinkChange (up : Bool) (s : State) : Host.Outcome State Fault Refusal :=
  if s.resetLow then .next (s.modRiser fun r => { r with uplinkUp := up })
  else run (.uplinkLinkChange up) s fun t => t.modRiser fun r => { r with uplinkUp := up }

/-- ONWARD_LINK_CHANGE (R175). -/
def execOnwardLinkChange (up : Bool) (s : State) : Host.Outcome State Fault Refusal :=
  if s.resetLow then .next (s.modRiser fun r => { r with onwardUp := up })
  else run (.onwardLinkChange up) s fun t => t.modRiser fun r => { r with onwardUp := up }

/-- The offline timer is at its end: it runs, with no more than its last second left. Each TIME message taken since the start
may have cut a second of the count short (R12), so the count can be that many behind (log entry 49). -/
def Riser.timerEnds (r : Riser) : Bool := r.online && r.offlineTimer.any fun n => decide (n ≤ 1 + r.offlineCuts)

/-- OFFLINE_TIMER_EXPIRY (R178, R180). No expiry falls for a start that a counting message has replaced (R179). -/
def execOfflineTimerExpiry (s : State) : Host.Outcome State Fault Refusal :=
  run .offlineTimerExpiry s fun t =>
    if t.riser.timerEnds then
      ((t.modRiser fun r => { r with online := false, offlineTimer := none }).markAll).raise floorLatch .offline
    else t

end Sys2Proof.Machine
end

