-- ==== Sys2Proof/Machine/Dispatch.lean ====
section
/-! DEFINITION. The effect of each command: one arm per constructor of `Instr`, each one call of its meaning. -/

namespace Sys2Proof.Machine

def exec (i : Instr) (s : State) : Host.Outcome State Fault Refusal :=
  match i with
  | .powerOn => Sys2Proof.Machine.execPowerOn s
  | .resetInput => Sys2Proof.Machine.execResetInput s
  | .bootHeaderRead => Sys2Proof.Machine.execBootHeaderRead s
  | .bootRecordRead => Sys2Proof.Machine.execBootRecordRead s
  | .bootMemoryTimeout => Sys2Proof.Machine.execBootMemoryTimeout s
  | .uplinkArrival typeValue payload => Sys2Proof.Machine.execUplinkArrival typeValue payload s
  | .onwardArrival typeValue payload => Sys2Proof.Machine.execOnwardArrival typeValue payload s
  | .routeMessage => Sys2Proof.Machine.execRouteMessage s
  | .uplinkTransmitEnd => Sys2Proof.Machine.execUplinkTransmitEnd s
  | .onwardTransmitEnd => Sys2Proof.Machine.execOnwardTransmitEnd s
  | .uplinkLinkChange up => Sys2Proof.Machine.execUplinkLinkChange up s
  | .onwardLinkChange up => Sys2Proof.Machine.execOnwardLinkChange up s
  | .offlineTimerExpiry => Sys2Proof.Machine.execOfflineTimerExpiry s
  | .book tag room req => Sys2Proof.Machine.execBook tag room req s
  | .alter tag room req => Sys2Proof.Machine.execAlter tag room req s
  | .withdraw tag room ref => Sys2Proof.Machine.execWithdraw tag room ref s
  | .contentRoom tag room state text => Sys2Proof.Machine.execContentRoom tag room state text s
  | .contentDrop tag drop state text => Sys2Proof.Machine.execContentDrop tag drop state text s
  | .service tag drop body => Sys2Proof.Machine.execService tag drop body s
  | .time tag day minute seconds => Sys2Proof.Machine.execTime tag day minute seconds s
  | .timeStepComplete => Sys2Proof.Machine.execTimeStepComplete s
  | .loadFloorRecord tag entry rec_ => Sys2Proof.Machine.execLoadFloorRecord tag entry rec_ s
  | .loadRoomMap tag entry code => Sys2Proof.Machine.execLoadRoomMap tag entry code s
  | .loadRoomClass tag entry fields => Sys2Proof.Machine.execLoadRoomClass tag entry fields s
  | .loadRoomTable tag entry cls => Sys2Proof.Machine.execLoadRoomTable tag entry cls s
  | .loadDropTable tag drop fields => Sys2Proof.Machine.execLoadDropTable tag drop fields s
  | .loadLineConfig tag line fields => Sys2Proof.Machine.execLoadLineConfig tag line fields s
  | .loadPantryConfig tag pantry fields => Sys2Proof.Machine.execLoadPantryConfig tag pantry fields s
  | .readFloorRecord tag clear => Sys2Proof.Machine.execReadFloorRecord tag clear s
  | .readRoomMap tag clear entry => Sys2Proof.Machine.execReadRoomMap tag clear entry s
  | .readRoomClass tag clear entry => Sys2Proof.Machine.execReadRoomClass tag clear entry s
  | .readRoomTable tag clear entry => Sys2Proof.Machine.execReadRoomTable tag clear entry s
  | .readPantryConfig tag clear entry => Sys2Proof.Machine.execReadPantryConfig tag clear entry s
  | .readReservation tag clear index => Sys2Proof.Machine.execReadReservation tag clear index s
  | .readOrder tag clear id => Sys2Proof.Machine.execReadOrder tag clear id s
  | .readEvidence tag clear room => Sys2Proof.Machine.execReadEvidence tag clear room s
  | .readDrop tag clear drop => Sys2Proof.Machine.execReadDrop tag clear drop s
  | .readLine tag clear line => Sys2Proof.Machine.execReadLine tag clear line s
  | .readPantryLink tag clear pantry => Sys2Proof.Machine.execReadPantryLink tag clear pantry s
  | .readRiserPort tag clear => Sys2Proof.Machine.execReadRiserPort tag clear s
  | .readFloorClock tag clear => Sys2Proof.Machine.execReadFloorClock tag clear s
  | .readEventLatch tag clear latch => Sys2Proof.Machine.execReadEventLatch tag clear latch s
  | .readEventSummary tag clear => Sys2Proof.Machine.execReadEventSummary tag clear s
  | .readBootStatus tag clear => Sys2Proof.Machine.execReadBootStatus tag clear s
  | .listDirty tag cursor => Sys2Proof.Machine.execListDirty tag cursor s
  | .markClean tag index version => Sys2Proof.Machine.execMarkClean tag index version s
  | .linePowerOn tag line => Sys2Proof.Machine.execLinePowerOn tag line s
  | .linePowerOff tag line => Sys2Proof.Machine.execLinePowerOff tag line s
  | .lineBreak tag line => Sys2Proof.Machine.execLineBreak tag line s
  | .dropMode tag drop mode => Sys2Proof.Machine.execDropMode tag drop mode s
  | .roomClose tag room => Sys2Proof.Machine.execRoomClose tag room s
  | .roomOpen tag room => Sys2Proof.Machine.execRoomOpen tag room s
  | .pantryResync tag pantry => Sys2Proof.Machine.execPantryResync tag pantry s
  | .clear tag latch => Sys2Proof.Machine.execClear tag latch s
  | .bootWrite tag offset bytes => Sys2Proof.Machine.execBootWrite tag offset bytes s
  | .bootPageWriteDone => Sys2Proof.Machine.execBootPageWriteDone s
  | .bootWriteAckTimeout => Sys2Proof.Machine.execBootWriteAckTimeout s
  | .bootReadbackDone bytes => Sys2Proof.Machine.execBootReadbackDone bytes s
  | .restart tag => Sys2Proof.Machine.execRestart tag s
  | .restartTimeout => Sys2Proof.Machine.execRestartTimeout s
  | .clockSecond => Sys2Proof.Machine.execClockSecond s
  | .evidenceTick => Sys2Proof.Machine.execEvidenceTick s
  | .tickReport entries => Sys2Proof.Machine.execTickReport entries s
  | .slotBoundary day slot => Sys2Proof.Machine.execSlotBoundary day slot s
  | .bookingSlotRun day slot => Sys2Proof.Machine.execBookingSlotRun day slot s
  | .dispatcherSlotRun slot => Sys2Proof.Machine.execDispatcherSlotRun slot s
  | .dayBoundary oldDay => Sys2Proof.Machine.execDayBoundary oldDay s
  | .withdrawNotice record slot => Sys2Proof.Machine.execWithdrawNotice record slot s
  | .orderOutcomeNotice record order => Sys2Proof.Machine.execOrderOutcomeNotice record order s
  | .keyCheckIn src => Sys2Proof.Machine.execKeyCheckIn src s
  | .keyEnd src => Sys2Proof.Machine.execKeyEnd src s
  | .keyExtend src => Sys2Proof.Machine.execKeyExtend src s
  | .walkup src n => Sys2Proof.Machine.execWalkup src n s
  | .sample src level => Sys2Proof.Machine.execSample src level s
  | .entry src isOpen => Sys2Proof.Machine.execEntry src isOpen s
  | .pantryStatus drop status => Sys2Proof.Machine.execPantryStatus drop status s
  | .replayTimerExpiry pantry => Sys2Proof.Machine.execReplayTimerExpiry pantry s
  | .settlingEnd line => Sys2Proof.Machine.execSettlingEnd line s
  | .breakLowEnd line => Sys2Proof.Machine.execBreakLowEnd line s
  | .breakQuietEnd line => Sys2Proof.Machine.execBreakQuietEnd line s
  | .powerFault line => Sys2Proof.Machine.execPowerFault line s
  | .walkPhase line => Sys2Proof.Machine.execWalkPhase line s
  | .downFrameSent line => Sys2Proof.Machine.execDownFrameSent line s
  | .upFrameReceived line frame => Sys2Proof.Machine.execUpFrameReceived line frame s
  | .answerTimeout line => Sys2Proof.Machine.execAnswerTimeout line s
  | .frameEndTimeout line => Sys2Proof.Machine.execFrameEndTimeout line s
  | .abandonedTurnEnd line => Sys2Proof.Machine.execAbandonedTurnEnd line s
  | .upFrameFirstByte line => Sys2Proof.Machine.execUpFrameFirstByte line s
  | .resetInputHeldLow => Sys2Proof.Machine.execResetInputHeldLow s

end Sys2Proof.Machine
end

