-- ==== Sys2Proof/Safety.lean ====
section
/-! DEFINITION. What counts as a safe run, and the terms in which claims about the part are stated: when a request can be
taken, what a command leaves to the transmitters, and the invariants. -/

namespace Sys2Proof.Machine

/-- A step that answers a next state, which is every step of this part. -/
def Safe (s : State) : Prop := ∃ t, step s = .next t

/-- A run of some length in which every step is safe. -/
def SafeFor : Nat → State → Prop
  | 0, _ => True
  | n + 1, s => ∃ t, step s = .next t ∧ SafeFor n t

/-! ## Requests -/

/-- The state after the transmitters have taken what they can, with which every command ends (R175 to R177). -/
def State.sent (s : State) : State := s.startUplink.startOnward

/-- The part is out of reset, with no late grant to be taken before the next command (R174, R197; log entry 50). -/
abbrev State.atRest (s : State) : Prop := s.resetLow = false ∧ s.riser.freed = false

/-- A request of a kind and tag can be taken now: the part is out of reset with no late grant to come first, no boot load is
in progress (R200), and the request has its reservation or a free entry to take as one (R172). -/
def State.accepts (s : State) (k : MsgKind) (tag : Tag) : Prop :=
  s.atRest ∧ s.loading = false ∧ s.canReply k tag = true

/-- A request to the Management Engine is the next in routed order: none that was routed before it is still to be taken
(R183). -/
def State.inTurn (s : State) (c : Instr) : Prop := (s.ahead c).any isManaged = false

/-- A request to the Management Engine can be taken by its own rule: it is the next in routed order, and no RESTART waits
(R183). -/
def State.manages (s : State) (c : Instr) (k : MsgKind) (tag : Tag) : Prop :=
  s.accepts k tag ∧ s.restart = none ∧ s.inTurn c

/-- The state in which a request's own rule acts: the command is no longer due and its reservation is held. -/
def State.taken (s : State) (c : Instr) (k : MsgKind) (tag : Tag) : State := (s.takeDue c).reserve k tag

/-- A request answered with no other effect than its reply. -/
def State.replies (s : State) (c : Instr) (k : MsgKind) (tag : Tag) (code : Code) (body : Body) : State :=
  ((s.taken c k tag).reply k tag code body).sent

/-! ## Invariants -/

/-- The boot memory keeps its canonical form, and a write in flight lies inside it (R188, R189). -/
def State.memoryInv (s : State) : Prop :=
  memWf s.bootMem = true ∧
  ∀ w, s.boot.write = some w →
    w.offset + w.run.length ≤ 8192 ∧ w.written ≤ w.run.length ∧
    (w.readback = true ↔ w.written = w.run.length) ∧ 1 ≤ w.run.length

/-- The queues of the Riser Port keep within their capacities, the local transmit queue with its reservations and with an
entry that waits for its grant (R168, R173), and work that owes a reply holds a reservation for it (R172). -/
def State.riserInv (s : State) : Prop :=
  s.riser.receive.length ≤ 8 ∧ s.riser.onwardQueue.length ≤ 16 ∧ s.riser.upwardQueue.length ≤ 16 ∧
  s.riser.used ≤ 32 ∧
  ∀ k tag, s.owed k tag ≤ s.riser.reservations.count (k, tag)

/-- What every latch satisfies (R192, R193): the pending count stays within 0..15 and is nonzero only while the latch is
set, pending causes come with a count, and a clear latch holds no cause and no unsent EVENT. -/
def Latch.ok (l : Latch) : Prop :=
  l.pendingCount ≤ 15 ∧ (l.pendingCount = 0 → l.pendingCauses = 0) ∧
  (l.isSet = false → l.causes = 0 ∧ l.pendingCount = 0 ∧ l.pendingCauses = 0 ∧ l.unsent = false)

/-- The latches and the unsent list (R192): the list holds the latches whose unsent flag is set, each once. -/
def State.latchInv (s : State) : Prop :=
  (∀ i, (s.latch i).ok) ∧ s.unsent.Nodup ∧ ∀ i, i ∈ s.unsent ↔ (s.latch i).unsent = true

/-- The Floor Clock within its ranges (R12). -/
def Clock.ok (c : Clock) : Prop := c.seconds ≤ 59 ∧ c.minute ≤ 1439 ∧ c.day ≤ 65535

/-- An evidence record within its ranges (R71). -/
def Evidence.ok (e : Evidence) : Prop := e.value ≤ 65535 ∧ e.peak ≤ 255 ∧ e.stale ≤ 3 ∧ e.vacantRun ≤ 255

/-- The Floor Clock and the evidence records within their ranges (R12, R71). -/
def State.rangeInv (s : State) : Prop := s.clock.ok ∧ ∀ r, (s.ev r).ok

end Sys2Proof.Machine
end

