-- ==== Sys2Proof/Certificates/Slice0/Obligations.lean ====
section
/-! DEFINITION. The statements for the provers. Each says what commands of the part do, or what every step keeps, in the
terms of Safety.lean and of the named operations of Machine/. Where a statement's result is written with a named
operation, that operation's own effect is what its docstring's rule gives. -/

open Sys2Proof Sys2Proof.Machine

/-! ## Steps and resets -/

/-- One step takes the command at the front of the queue with the queue's rest. With no command waiting it takes the
oldest work that one block has handed to another, and with none of that either the part idles: the model's choice, log
entries 1 and 2. -/
def Obligations.StepTakesFrontCommand : Prop :=
  (∀ (c : Instr) (rest : List Instr) (s : State), step { s with pending := c :: rest } = exec c { s with pending := rest }) ∧
  (∀ (c : Instr) (rest : List Instr) (s : State),
    step { s with pending := [], due := c :: rest } = exec c { s with pending := [], due := c :: rest }) ∧
  ∀ s : State, step { s with pending := [], due := [] } = .next { s with pending := [], due := [] }

/-- While the reset input is held low no command changes anything (R197), but for power-on, the reset input itself, and
the port links, which are inputs (log entry 19). -/
def Obligations.HeldLowChangesNothing : Prop :=
  ∀ (c : Instr) (s : State), s.resetLow = true →
    (c ≠ .powerOn → c ≠ .resetInput → c ≠ .resetInputHeldLow → (∀ up, c ≠ .uplinkLinkChange up) →
      (∀ up, c ≠ .onwardLinkChange up) → exec c s = .next s) ∧
    (∀ up, exec (.uplinkLinkChange up) s = .next { s with riser := { s.riser with uplinkUp := up } }) ∧
    ∀ up, exec (.onwardLinkChange up) s = .next { s with riser := { s.riser with onwardUp := up } }

/-- Power-on, the reset input and the restart of R190 each take every block to its reset state (R197). The commands that
wait, the boot memory and the port links are outside the reset; that the links, as inputs, keep their state through every
reset is the model's choice (log entry 19). A page write in flight leaves every byte outside its page (R190; the page's own
bytes are free values, log entry 17). -/
def Obligations.ResetsTakeEveryBlockBack : Prop :=
  ∀ s : State,
    let back (low : Bool) : State :=
      { State.reset with
        pending := s.pending, freeCount := s.freeCount + 1, resetLow := low, bootMem := s.cutMemory
        riser := { Riser.reset with uplinkUp := s.riser.uplinkUp, onwardUp := s.riser.onwardUp } }
    exec .powerOn s = .next (back s.resetLow) ∧
    exec .resetInput s = .next (back false) ∧
    exec .resetInputHeldLow s = .next (back true) ∧
    (∀ tag, s.atRest → s.restart = some tag → exec .restartTimeout s = .next (back false)) ∧
    (∀ tag b f, s.atRest → s.restart = some tag →
      s.riser.uplinkTx = some (.own (.reply b f tag .restart .ok .none)) →
      exec .uplinkTransmitEnd s = .next (back false)) ∧
    (∀ w, s.boot.write = some w → w.readback = false →
      ∀ a, a < pageBase (w.offset + w.written) ∨ pageBase (w.offset + w.written) + 32 ≤ a →
        memRead s.cutMemory a = memRead s.bootMem a) ∧
    (s.boot.write.all Write.readback = true → s.cutMemory = s.bootMem)

/-- The reset values that the spec gives (R1, R3, R5, R12, R23, R71, R88, R91, R97, R121, R123, R144, R146, R167, R176, R178,
R192, R200). -/
def Obligations.ResetStateHoldsTableValues : Prop :=
  State.reset.floor = { building := 0, floor := 0, windowLow := 1, windowHigh := 0, localWeight := 2, onwardWeight := 1,
                        offlineTimeout := 60, riserType := 0x9D4E } ∧
  (∀ i : Nat, i < 8 → State.reset.classes[i]? = some
    { grace := 3, turnaround := 1, clean := 0, walkupMax := 6, presence := false, autoEnd := 0, weight := 16, decay := 32,
      bump := 2000, tOn := 12000, tOff := 6000, closedAtStart := false }) ∧
  (∀ x : Riser, x = State.reset.riser →
    x.receive = [] ∧ x.onwardQueue = [] ∧ x.upwardQueue = [] ∧ x.localQueue = [] ∧ x.reservations = [] ∧
    x.replyHeld = false ∧ x.grantEvent = false ∧ x.shareOnward = false ∧ x.shareCount = 0 ∧ x.online = true ∧
    x.offlineTimer = none ∧ x.offlineCuts = 0 ∧ x.uplinkForeign = 0 ∧ x.onwardForeign = 0 ∧ x.malformed = 0 ∧ x.receiveDrops = 0 ∧
    x.onwardDrops = 0 ∧ x.upwardDrops = 0 ∧ x.upframeDrops = 0) ∧
  State.reset.clock = { isSet := false, seconds := 0, minute := 0, day := 0, periods := 0 } ∧
  (∀ i : Nat, i < 48 → State.reset.roomMap[i]? = some none) ∧
  (∀ r : Nat, State.reset.room r = { cls := 0, service := .opened, today := [], next := [] }) ∧
  (∀ i : Nat, State.reset.res i = none) ∧ State.reset.orders = [] ∧
  (∀ r : Nat, State.reset.ev r = { value := 0, peak := 0, sampleSeen := false, stale := 0, entryBump := false,
                                   verdict := .noSensor, vacantRun := 0 }) ∧
  (∀ p : Nat, State.reset.pantry p =
    { drop := none, lead := 3, timeoutCode := 1, dispatch := [], cancels := [], link := .down, nextSeq := 0, consumed := 0,
      limit := 0, replay := [], replayPos := none, replayCount := 0, replayTimer := none, taken := none, staleAcks := 0,
      creditRange := 0 }) ∧
  (∀ l : Nat,
    let x := State.reset.line l
    x.timeoutCode = 1 ∧ x.powerAtStart = false ∧
    (∀ k : Nat, k < 15 → x.schedule[k]? = some (.address (k + 1)) ∧ x.schedule[16 + k]? = some (.address (k + 1))) ∧
    x.schedule[15]? = some .probe ∧ x.schedule[31]? = some .probe ∧
    x.state = .off ∧ x.feed = false ∧ x.pointer = 0 ∧ x.walk = .walking ∧ x.cursor = 0 ∧ x.turn = none ∧
    x.incoming = none ∧ x.errors = 0 ∧ x.timeouts = 0) ∧
  (∀ c : DropCode,
    let x := State.reset.drop c
    x.kind = .unused ∧ x.room = none ∧ x.pantry = none ∧ x.reported = none ∧ x.mode = .isolated ∧ x.present = false ∧
    x.miss = 0 ∧ x.answer = none ∧ x.fifo = [] ∧ x.inFlight = .none ∧ x.droppedItems = 0 ∧ x.ignoredFrames = 0) ∧
  (∀ i : Nat, State.reset.latch i = { isSet := false, causes := 0, pendingCount := 0, pendingCauses := 0, unsent := false,
                                      raiseCount := 0 }) ∧
  State.reset.unsent = [] ∧ State.reset.flushCount = 0 ∧ State.reset.discardCount = 0 ∧ State.reset.restart = none ∧
  State.reset.boot.load = .loading ∧ State.reset.boot.blank = none ∧ State.reset.boot.applied = 0 ∧
  State.reset.boot.clamped = 0 ∧ State.reset.boot.skipped = 0 ∧ State.reset.boot.firstSkip = none ∧
  State.reset.boot.write = none

/-! ## The boot load -/

/-- The header of the boot image judged (R198): each blank reason ends the load, an image of length 0 ends it with the skip
of a missing floor record, and any other length up to 8188 leads to the record at offset 4. A memory that does not
acknowledge ends the load, at the header as a blank image (R198) and at a record with a skip (R199). That an image of length
0 has its skip at offset 4, and that a first record which is not acknowledged gives MEMORY_FAULT alone, are the model's
readings (log entry 23). -/
def Obligations.BootHeaderIsJudged : Prop :=
  ∀ s : State, s.atRest →
    let t := s.takeDue .bootHeaderRead
    let len := (memRead s.bootMem 2).toNat * 256 + (memRead s.bootMem 3).toNat
    let signed : Prop := memRead s.bootMem 0 = 0xE4 ∧ memRead s.bootMem 1 = 0x60
    (s.boot.phase = .header → ¬ signed → exec .bootHeaderRead s = .next (t.endLoad (some .badSignature)).sent) ∧
    (s.boot.phase = .header → signed → 8188 < len → exec .bootHeaderRead s = .next (t.endLoad (some .badLength)).sent) ∧
    (s.boot.phase = .header → signed → len = 0 →
      exec .bootHeaderRead s = .next ((t.skip 4 .noFloorRecord).endLoad none).sent) ∧
    (s.boot.phase = .header → signed → 1 ≤ len → len ≤ 8188 →
      exec .bootHeaderRead s = .next { t with boot := { s.boot with phase := .records 4 (4 + len) true } }.sent) ∧
    (s.boot.phase = .header →
      exec .bootMemoryTimeout s = .next ((s.takeDue .bootMemoryTimeout).endLoad (some .noMemory)).sent) ∧
    ∀ offset limit first, s.boot.phase = .records offset limit first →
      exec .bootMemoryTimeout s =
        .next (((s.takeDue .bootMemoryTimeout).skip offset .memoryFault).endLoad none).sent

/-- A record of the boot image dealt with (R199). A length of 0 and a body past the image's end both end the load. A body
of no table's form is skipped; a record that its table's owner takes counts as applied, and as clamped with a clamped
value; one that it refuses is skipped with BAD_TABLE. Of the image's first record (R199 step 3): no record at all, and a
floor record that is refused, are skipped with NO_FLOOR_RECORD; a record of another table has NO_FLOOR_RECORD counted first
and is then dealt with as any other; for a first record that is truncated or of no form its own cause alone is counted (log
entry 23). The load goes on at the next record, or ends with the image. -/
def Obligations.BootRecordIsDealtWith : Prop :=
  ∀ (s : State) (offset limit : Nat) (first : Bool), s.atRest → s.boot.phase = .records offset limit first →
    let t := s.takeDue .bootRecordRead
    let len := (memRead s.bootMem offset).toNat
    let body := memReadRun s.bootMem (offset + 1) len
    let past := offset + 1 + len
    let counted (u : State) (clamped : Bool) : State := { u with boot := { u.boot with
      applied := min (u.boot.applied + 1) 65535
      clamped := if clamped then min (u.boot.clamped + 1) 65535 else u.boot.clamped } }
    (len = 0 → first = false → exec .bootRecordRead s = .next (t.endLoad none).sent) ∧
    (len = 0 → first = true → exec .bootRecordRead s = .next ((t.skip offset .noFloorRecord).endLoad none).sent) ∧
    (1 ≤ len → limit < past → exec .bootRecordRead s = .next ((t.skip offset .truncated).endLoad none).sent) ∧
    (1 ≤ len → past ≤ limit → parseLoad body = none →
      exec .bootRecordRead s = .next ((t.skip offset .badRecord).nextRecord past limit).sent) ∧
    (∀ r, 1 ≤ len → past ≤ limit → parseLoad body = some r →
      let isFloor : Prop := ∃ n rec, r = .floorRecord n rec
      let v := t.skip offset .noFloorRecord
      (first = false ∨ isFloor → ∀ u clamped, t.load r = .ok (u, clamped) →
        exec .bootRecordRead s = .next ((counted u clamped).nextRecord past limit).sent) ∧
      (first = false → ∀ code, t.load r = .error code →
        exec .bootRecordRead s = .next ((t.skip offset .badTable).nextRecord past limit).sent) ∧
      (first = true → isFloor → ∀ code, t.load r = .error code →
        exec .bootRecordRead s = .next (v.nextRecord past limit).sent) ∧
      (first = true → ¬ isFloor → ∀ u clamped, v.load r = .ok (u, clamped) →
        exec .bootRecordRead s = .next ((counted u clamped).nextRecord past limit).sent) ∧
      (first = true → ¬ isFloor → ∀ code, v.load r = .error code →
        exec .bootRecordRead s = .next ((v.skip offset .badTable).nextRecord past limit).sent)) ∧
    (∀ cause, (s.skip offset cause).boot.skipped = min (s.boot.skipped + 1) 65535 ∧
      (s.boot.firstSkip = none → (s.skip offset cause).boot.firstSkip = some (offset, cause)) ∧
      (s.boot.firstSkip ≠ none → (s.skip offset cause).boot.firstSkip = s.boot.firstSkip)) ∧
    (∀ u : State, past < limit → u.nextRecord past limit = { u with boot := { u.boot with phase := .records past limit false } }) ∧
    ∀ u : State, limit ≤ past → u.nextRecord past limit = u.endLoad none

/-- The end of the boot load (R201): the load state with its counts as they stand, the rooms whose class is closed at
start, the lines with power at start, the offline timer started, and the floor event raised, on a floor latch that was
clear. -/
def Obligations.EndOfBootLoad : Prop :=
  ∀ (s : State) (blank : Option BlankReason),
    let t := s.endLoad blank
    t.boot = { s.boot with
      load := if blank.isSome then .blank else if s.boot.skipped = 0 then .done else .partly
      blank := blank, phase := .idle } ∧
    (∀ r, r < 48 →
      (t.room r).service = (if (s.classOf r).closedAtStart then .closed else (s.room r).service) ∧
      (t.room r).cls = (s.room r).cls ∧ (t.room r).today = (s.room r).today ∧ (t.room r).next = (s.room r).next) ∧
    (∀ l, l < 4 → (s.line l).state = .off →
      (t.line l).state = (if (s.line l).powerAtStart then .settling else .off) ∧
      ((t.line l).feed = true ↔ (s.line l).powerAtStart = true ∨ (s.line l).feed = true)) ∧
    t.riser.offlineTimer = some s.floor.offlineTimeout ∧ t.riser.offlineCuts = 0 ∧ t.riser.online = s.riser.online ∧
    t.clock = s.clock ∧ t.pool = s.pool ∧ t.orders = s.orders ∧ t.evidence = s.evidence ∧ t.pantries = s.pantries ∧
    ((s.latch 120).isSet = false →
      (t.latch 120).isSet = true ∧
      (t.latch 120).causes = (if blank.isSome then 2 else if s.boot.skipped = 0 then 1 else 4))

/-! ## The riser path -/

/-- A frame on the uplink port (R169): another type value, a header that does not parse, an upward kind, a request that
joins the receive buffer, and one that finds it holding 8 messages. A request is shown to the offline timer first. -/
def Obligations.UplinkArrivalIsTaken : Prop :=
  ∀ (s : State) (type : Nat) (payload : Bytes), s.atRest →
    let t := s.takeDue (.uplinkArrival type payload)
    (type ≠ s.floor.riserType → exec (.uplinkArrival type payload) s =
      .next { t with riser := { s.riser with uplinkForeign := min (s.riser.uplinkForeign + 1) 65535 } }.sent) ∧
    (type = s.floor.riserType → parseMessage payload = none → exec (.uplinkArrival type payload) s =
      .next { t with riser := { s.riser with malformed := min (s.riser.malformed + 1) 65535 } }.sent) ∧
    ∀ m, type = s.floor.riserType → parseMessage payload = some m →
      let u := t.showTimer m.dest
      (m.kind.upward = true → exec (.uplinkArrival type payload) s =
        .next { t with riser := { s.riser with malformed := min (s.riser.malformed + 1) 65535 } }.sent) ∧
      (m.kind.upward = false → s.riser.receive.length < 8 → exec (.uplinkArrival type payload) s =
        .next ({ u with riser := { u.riser with receive := s.riser.receive ++ [payload] } }.handOnce .routeMessage).sent) ∧
      (m.kind.upward = false → 8 ≤ s.riser.receive.length → exec (.uplinkArrival type payload) s =
        .next { u with riser := { u.riser with receiveDrops := min (s.riser.receiveDrops + 1) 65535 } }.sent)

/-- A frame on the onward port (R169): whatever its kind and destination, a message joins the onward-to-uplink queue, or
is discarded and counted when that queue holds 16. -/
def Obligations.OnwardArrivalIsForwarded : Prop :=
  ∀ (s : State) (type : Nat) (payload : Bytes), s.atRest →
    let t := s.takeDue (.onwardArrival type payload)
    (type ≠ s.floor.riserType → exec (.onwardArrival type payload) s =
      .next { t with riser := { s.riser with onwardForeign := min (s.riser.onwardForeign + 1) 65535 } }.sent) ∧
    (type = s.floor.riserType → parseMessage payload = none → exec (.onwardArrival type payload) s =
      .next { t with riser := { s.riser with malformed := min (s.riser.malformed + 1) 65535 } }.sent) ∧
    (type = s.floor.riserType → parseMessage payload ≠ none → s.riser.upwardQueue.length < 16 →
      exec (.onwardArrival type payload) s =
        .next { t with riser := { s.riser with upwardQueue := s.riser.upwardQueue ++ [payload] } }.sent) ∧
    (type = s.floor.riserType → parseMessage payload ≠ none → 16 ≤ s.riser.upwardQueue.length →
      exec (.onwardArrival type payload) s =
        .next { t with riser := { s.riser with upwardDrops := min (s.riser.upwardDrops + 1) 65535 } }.sent)

/-- The route of a message with the floor record as it stands (R170, R171). A FLOOR, ROOM or DROP destination of another
building or floor is forwarded into the onward window or UNROUTABLE; one of this floor goes to the block that takes its
form and kind, or is BAD_MESSAGE, UNKNOWN_ROOM or, during the boot load, NOT_READY (R200); a BROADCAST is taken as a FLOOR
message here, but not during the boot load. A request whose body is not of its form is handed to the same block, which
answers it BAD_MESSAGE and makes no other change, in its turn among the block's requests (R203, R183). That the body then
travels as a command of its kind outside the form's ranges, which command that is, and that work which a catch-up holds back
is checked once it is over, are the model's (log entries 6 and 31); a RESTART has no layout whose form could fail (log
entry 40). -/
def Obligations.RouteFollowsDestination : Prop :=
  (∀ (s : State) (m : Msg),
    let here (d : Dest) (b f : Nat) : Prop :=
      d = .floor b f ∨ (∃ c, d = .room c ∧ c.building = b ∧ c.floor = f) ∨ ∃ c, d = .drop b f c
    (∀ b f, here m.dest b f →
      (b ≠ s.floor.building → s.routeOf m = .answer .unroutable) ∧
      (b = s.floor.building → f ≠ s.floor.floor → s.floor.windowLow ≤ f → f ≤ s.floor.windowHigh →
        s.routeOf m = .forward) ∧
      (b = s.floor.building → f ≠ s.floor.floor → f < s.floor.windowLow ∨ s.floor.windowHigh < f →
        s.routeOf m = .answer .unroutable)) ∧
    (m.dest = .broadcast → s.loading = true → s.routeOf m = .leave) ∧
    (∀ c, m.dest = .room c → c.building = s.floor.building → c.floor = s.floor.floor →
      (∀ i : Nat, s.roomMap[i]? ≠ some (some c)) → s.routeOf m = .answer .unknownRoom) ∧
    (∀ c, m.dest = .drop s.floor.building s.floor.floor c → validDrop c = false ∨ (s.drop c).kind = .unused →
      s.routeOf m = .answer .badMessage) ∧
    ∀ t : Target,
      (t = .floor ∧ m.dest = .floor s.floor.building s.floor.floor) ∨
      (∃ c i, t = .room i ∧ m.dest = .room c ∧ c.building = s.floor.building ∧ c.floor = s.floor.floor ∧
        s.roomMap[i]? = some (some c) ∧ ∀ j : Nat, s.roomMap[j]? = some (some c) → i ≤ j) ∨
      (∃ c, t = .drop c ∧ m.dest = .drop s.floor.building s.floor.floor c ∧ validDrop c = true ∧
        (s.drop c).kind ≠ .unused) →
      let takes : Prop := match t with
        | .floor => m.kind.upward = false ∧ m.kind ≠ .book ∧ m.kind ≠ .content ∧ m.kind ≠ .service
        | .room _ => m.kind = .book ∨ m.kind = .alter ∨ m.kind = .withdraw ∨ m.kind = .content
        | .drop _ => m.kind = .content ∨ m.kind = .service
      (¬ takes → s.routeOf m = .answer .badMessage) ∧
      (takes → s.loading = true → s.routeOf m = .answer .notReady) ∧
      (takes → s.loading = false →
        (∀ c, commandOf t m.kind m.tag m.body = some c → s.routeOf m = .take c) ∧
        (commandOf t m.kind m.tag m.body = none → s.routeOf m = .take (outOfForm t m.kind m.tag)))) ∧
  (∀ (s : State) (t : Target) (k : MsgKind) (tag : Tag), s.accepts k tag → s.catchUp = false →
    let c := outOfForm t k tag
    (match t with
      | .floor => k.upward = false ∧ k ≠ .book ∧ k ≠ .content ∧ k ≠ .service ∧ k ≠ .restart ∧ (k = .time ∨ s.inTurn c)
      | .room r => r < 48 ∧ (k = .book ∨ k = .alter ∨ k = .withdraw ∨ k = .content)
      | .drop d => validDrop d = true ∧ (k = .content ∨ k = .service)) →
    exec c s = .next (s.replies c k tag .badMessage .none)) ∧
  ∀ (s : State) (m : Msg), s.loading = false →
    (∀ b f, m.dest = .floor b f → b ≠ s.floor.building → s.routeOf m = .answer .unroutable) ∧
    (∀ f, m.dest = .floor s.floor.building f → f ≠ s.floor.floor → s.floor.windowLow ≤ f → f ≤ s.floor.windowHigh →
      s.routeOf m = .forward) ∧
    (∀ f, m.dest = .floor s.floor.building f → f ≠ s.floor.floor → f < s.floor.windowLow ∨ s.floor.windowHigh < f →
      s.routeOf m = .answer .unroutable) ∧
    (m.dest = .broadcast → s.routeOf m = s.routeOf { m with dest := .floor s.floor.building s.floor.floor }) ∧
    (m.dest = .floor s.floor.building s.floor.floor → m.kind = .book ∨ m.kind = .content ∨ m.kind = .service →
      s.routeOf m = .answer .badMessage) ∧
    (m.dest = .floor s.floor.building s.floor.floor → m.kind = .time → m.body.length = 5 →
      ∃ d min sec, s.routeOf m = .take (.time m.tag d min sec)) ∧
    (∀ c, m.dest = .room c → c.building = s.floor.building → c.floor = s.floor.floor →
      (∀ i : Nat, s.roomMap[i]? ≠ some (some c)) → s.routeOf m = .answer .unknownRoom) ∧
    (∀ c i, m.dest = .room c → c.building = s.floor.building → c.floor = s.floor.floor → m.kind = .withdraw →
      s.roomMap[i]? = some (some c) → (∀ j : Nat, s.roomMap[j]? = some (some c) → j = i) →
      ∀ ref, parseWithdraw m.body = some ref → s.routeOf m = .take (.withdraw m.tag (some i) ref)) ∧
    (∀ c, m.dest = .drop s.floor.building s.floor.floor c → validDrop c = false ∨ (s.drop c).kind = .unused →
      s.routeOf m = .answer .badMessage) ∧
    (∀ c, m.dest = .drop s.floor.building s.floor.floor c → validDrop c = true → (s.drop c).kind ≠ .unused →
      m.kind = .service → m.body.length ≤ 240 → s.routeOf m = .take (.service m.tag c m.body))

/-- The oldest message of the receive buffer (R170, R172): with no free entry for its reply it stays, held; with one, a
request for this floor takes its reservation, leaves the buffer, restarts the offline timer and is handed to its block, and
a message that the Riser Port answers itself is answered. A message for the onward window is forwarded, unless it is one
held before that still waits for an entry (R174); a BROADCAST leaves its copy for the onward port, during the boot load
that alone (R200). The message behind it is held in its turn, or is to be routed next. An ONLINE that the routing raises
goes before the Riser Port's own reply: the model's choice (log entry 47). A late grant comes before every command but an
up frame that brings an UPFRAME (R173, R174), and a ROUTE_MESSAGE that stands for it makes it and nothing else: the model's
choice of how it is held (log entry 50). -/
def Obligations.RouteMessageTakesOrHoldsOldest : Prop :=
  (∀ s : State, s.resetLow = false → s.riser.freed = true →
    s.settled = State.grant 9 { s with
      due := s.due.erase .routeMessage, riser := { s.riser with freed := false } } ∧
    s.settled.atRest ∧ exec .routeMessage s = .next s.settled.sent ∧
    ∀ c : Instr, c ≠ .routeMessage → (∀ line frame, c ≠ .upFrameReceived line frame) → exec c s = exec c s.settled) ∧
  (∀ s : State, s.riser.freed = false → s.settled = s) ∧
  (∀ (s : State) (raw : Bytes) (rest : List Bytes) (m : Msg), s.atRest →
    s.riser.receive = raw :: rest → parseMessage raw = some m →
    let t := s.takeDue .routeMessage
    let needs := (s.routeOf m).needsReply
    (needs = true ∨ s.riser.replyHeld = true → s.freeEntries = 0 →
      exec .routeMessage s = .next { t with riser := { s.riser with replyHeld := true } }.sent) ∧
    ((needs = false ∧ s.riser.replyHeld = false) ∨ 0 < s.freeEntries →
      let left : State := { t with riser := { s.riser with
        receive := rest, replyHeld := false
        reservations := if needs then s.riser.reservations ++ [(m.kind, m.tag)] else s.riser.reservations } }
      let copied : State :=
        if m.dest = .broadcast ∧ s.floor.windowLow ≤ s.floor.windowHigh then (left.showTimer m.dest).pushOnward raw
        else left.showTimer m.dest
      let routed : State := match s.routeOf m with
        | .leave => copied
        | .forward => copied.pushOnward raw
        | .answer code => copied.reply m.kind m.tag code .none
        | .take c => { copied with due := copied.due ++ [c] }
      exec .routeMessage s = .next routed.afterRoute.sent)) ∧
  (∀ (s : State) (raw : Bytes),
    (s.riser.onwardQueue.length < 16 →
      s.pushOnward raw = { s with riser := { s.riser with onwardQueue := s.riser.onwardQueue ++ [raw] } }) ∧
    (16 ≤ s.riser.onwardQueue.length →
      s.pushOnward raw = { s with riser := { s.riser with onwardDrops := min (s.riser.onwardDrops + 1) 65535 } }) ∧
    (s.riser.receive = [] → s.afterRoute = s) ∧
    ∀ next rest m, s.riser.receive = next :: rest → parseMessage next = some m →
      ((s.routeOf m).needsReply = true ∨ s.riser.replyHeld = true → s.freeEntries = 0 →
        s.afterRoute = { s with riser := { s.riser with replyHeld := true } }) ∧
      (((s.routeOf m).needsReply = false ∧ s.riser.replyHeld = false) ∨ 0 < s.freeEntries →
        s.afterRoute = if Instr.routeMessage ∈ s.due then s else { s with due := s.due ++ [Instr.routeMessage] })) ∧
  ∀ (s : State) (raw : Bytes) (rest : List Bytes) (m : Msg), s.atRest → s.loading = false →
    s.riser.receive = raw :: rest → parseMessage raw = some m →
    let t := s.takeDue .routeMessage
    ((s.routeOf m).needsReply = true → s.freeEntries = 0 →
      exec .routeMessage s = .next { t with riser := { s.riser with replyHeld := true } }.sent) ∧
    (∀ c b f, 0 < s.freeEntries → m.dest = .floor b f → s.riser.online = true → s.routeOf m = .take c → rest = [] →
      exec .routeMessage s = .next { t with
        due := t.due ++ [c]
        riser := { s.riser with
          receive := [], replyHeld := false, offlineTimer := some s.floor.offlineTimeout, offlineCuts := 0
          reservations := s.riser.reservations ++ [(m.kind, m.tag)] } }.sent) ∧
    (∀ b f, m.dest = .floor b f → s.riser.replyHeld = false ∨ 0 < s.freeEntries → s.routeOf m = .forward → rest = [] →
      s.riser.onwardQueue.length < 16 →
      exec .routeMessage s = .next { t with
        riser := { s.riser with receive := [], replyHeld := false, onwardQueue := s.riser.onwardQueue ++ [raw] } }.sent) ∧
    (∀ b f, m.dest = .floor b f → s.riser.replyHeld = false ∨ 0 < s.freeEntries → s.routeOf m = .forward → rest = [] →
      16 ≤ s.riser.onwardQueue.length →
      exec .routeMessage s = .next { t with
        riser := { s.riser with receive := [], replyHeld := false
                                onwardDrops := min (s.riser.onwardDrops + 1) 65535 } }.sent)

/-- The end of a transmission and a change of a link leave the queues to the transmitters (R175, R176): the onward
transmitter takes the oldest message while its link is up, and neither takes one while its link is down or it is busy. That
a link which goes down leaves the transmission in progress to end is the model's reading (log entry 22). The entry that the
uplink frees in a full queue is granted (R174): to the reply claim, whose message is routed, to the event claim, whose
EVENT is placed, to the one that the grant flag names when both wait, and to none when neither does; a granted message
that needs no reply after all gives the entry back, with the flag as it was. A late grant, which R173 allows an UPFRAME to
come before, leaves the entry marked until the next command, and itself first among the work that is due; that a claim must
wait for it, and that no second entry is so left, is the model's choice (log entry 50). A message other than the reply of a RESTART that waits only
frees the transmitter as it ends (R190). -/
def Obligations.TransmittersTakeOldestMessages : Prop :=
  (∀ s : State,
    (∀ raw rest m, s.riser.receive = raw :: rest → parseMessage raw = some m →
      s.headNeedsReply = (s.routeOf m).needsReply) ∧
    (s.riser.receive = [] → s.headNeedsReply = false) ∧
    (∀ n,
      let reply : Prop := s.riser.replyHeld = true ∨ s.headNeedsReply = true
      let flagged (t : State) (event : Bool) : State := { t with riser := { t.riser with grantEvent := event } }
      (s.freeEntries = 0 → s.grant (n + 1) = s) ∧
      (0 < s.freeEntries → reply → s.unsent = [] ∨ s.riser.grantEvent = false →
        (s.headNeedsReply = true → s.grant (n + 1) = (flagged s.routeHead true).afterRoute) ∧
        (s.headNeedsReply = false → s.grant (n + 1) = s.routeHead.grant n)) ∧
      (0 < s.freeEntries → s.unsent ≠ [] → ¬ reply ∨ s.riser.grantEvent = true →
        s.grant (n + 1) = (flagged s.placeUnsent false).afterRoute) ∧
      (0 < s.freeEntries → s.unsent = [] → ¬ reply → s.grant (n + 1) = s.afterRoute)) ∧
    (∀ i rest, s.unsent = i :: rest → i < 120 →
      let l := s.latch i
      s.placeUnsent = { s.modLatch i fun l => { l with unsent := false } with
        unsent := rest
        riser := { s.riser with localQueue := s.riser.localQueue ++
          [.event s.floor.building s.floor.floor i l.causes l.raiseCount none none] } }) ∧
    s.routeHead.riser.grantEvent = s.riser.grantEvent ∧
    (let claim : Prop := s.riser.replyHeld = true ∨ s.headNeedsReply = true ∨ s.unsent ≠ []
     s.entryFreed false = s.grant 9 ∧
      (claim → s.riser.freed = false → s.entryFreed true = { s with
        riser := { s.riser with freed := true }, due := Instr.routeMessage :: s.due.erase .routeMessage }) ∧
      (¬ claim ∨ s.riser.freed = true → s.entryFreed true = s.grant 9))) ∧
  ∀ s : State, s.atRest →
    (s.restart = none ∨
      (∃ waiting, s.restart = some waiting ∧
        ∀ b f body, s.riser.uplinkTx ≠ some (.own (.reply b f waiting .restart .ok body))) →
      exec .uplinkTransmitEnd s =
        .next { s.takeDue .uplinkTransmitEnd with riser := { s.riser with uplinkTx := none } }.sent) ∧
    exec .onwardTransmitEnd s =
      .next { s.takeDue .onwardTransmitEnd with riser := { s.riser with onwardTx := none } }.sent ∧
    (∀ up, exec (.uplinkLinkChange up) s =
      .next { s.takeDue (.uplinkLinkChange up) with riser := { s.riser with uplinkUp := up } }.sent) ∧
    (∀ up, exec (.onwardLinkChange up) s =
      .next { s.takeDue (.onwardLinkChange up) with riser := { s.riser with onwardUp := up } }.sent) ∧
    (s.riser.uplinkUp = false ∨ s.riser.uplinkTx ≠ none → s.sent = s.startOnward) ∧
    (s.riser.onwardUp = false ∨ s.riser.onwardTx ≠ none ∨ s.riser.onwardQueue = [] → s.startOnward = s) ∧
    (∀ raw rest, s.riser.onwardUp = true → s.riser.onwardTx = none → s.riser.onwardQueue = raw :: rest →
      s.startOnward = { s with riser := { s.riser with onwardQueue := rest, onwardTx := some raw } }) ∧
    (∀ m rest, s.riser.uplinkUp = true → s.riser.uplinkTx = none → s.riser.localQueue = m :: rest →
      s.riser.upwardQueue = [] → s.riser.shareOnward = false → s.riser.shareCount < s.floor.localWeight →
      s.riser.shareCount < 15 → 0 < s.freeEntries →
      s.startUplink = { s with riser := { s.riser with
        localQueue := rest, uplinkTx := some (.own m), shareCount := s.riser.shareCount + 1 } })

/-- The uplink arbiter's choice (R177): which share the next message comes from and the count it starts from. The share
that is not empty and has not reached its weight keeps the turn, one that is empty or at its weight gives it up, and an
empty queue is never chosen while the other holds a message. The transmitter then takes the oldest message of the share
chosen, which becomes the share of the turn with its count one on; the entry that this frees in a full local transmit queue
is granted at once or late (R173, R174; which of the two is a free value, log entry 50). -/
def Obligations.ArbiterSharesTheUplink : Prop :=
  (∀ s : State, s.riser.uplinkUp = true → s.riser.uplinkTx = none →
    let x := chooseShare (decide (s.riser.localQueue = [])) (decide (s.riser.upwardQueue = [])) s.floor.localWeight
      s.floor.onwardWeight s.riser.shareOnward s.riser.shareCount
    (∀ raw rest, s.riser.upwardQueue = raw :: rest → x.1 = true →
      s.startUplink = { s with riser := { s.riser with
        upwardQueue := rest, uplinkTx := some (.forwarded raw), shareOnward := true
        shareCount := min 15 (x.2 + 1) } }) ∧
    ∀ m rest, s.riser.localQueue = m :: rest → x.1 = false →
      let t : State := { s with riser := { s.riser with
        localQueue := rest, uplinkTx := some (.own m), shareOnward := false, shareCount := min 15 (x.2 + 1) } }
      (0 < s.freeEntries → s.startUplink = t) ∧
      (s.freeEntries = 0 → ∃ late, s.startUplink = { t with freeCount := s.freeCount + 1 }.entryFreed late)) ∧
  ∀ (emptyLocal emptyOnward : Bool) (weightLocal weightOnward count : Nat),
    (emptyLocal = false → count < weightLocal →
      chooseShare emptyLocal emptyOnward weightLocal weightOnward false count = (false, count)) ∧
    (emptyOnward = false → count < weightOnward →
      chooseShare emptyLocal emptyOnward weightLocal weightOnward true count = (true, count)) ∧
    (emptyOnward = false → emptyLocal = true ∨ weightLocal ≤ count →
      chooseShare emptyLocal emptyOnward weightLocal weightOnward false count = (true, 0)) ∧
    (emptyLocal = false → emptyOnward = true ∨ weightOnward ≤ count →
      chooseShare emptyLocal emptyOnward weightLocal weightOnward true count = (false, 0)) ∧
    (emptyOnward = true → weightLocal ≤ count →
      chooseShare emptyLocal emptyOnward weightLocal weightOnward false count = (false, 0)) ∧
    (emptyLocal = true → weightOnward ≤ count →
      chooseShare emptyLocal emptyOnward weightLocal weightOnward true count = (true, 0)) ∧
    ∀ share, emptyLocal = false ∨ emptyOnward = false →
      ((chooseShare emptyLocal emptyOnward weightLocal weightOnward share count).1 = true → emptyOnward = false) ∧
      ((chooseShare emptyLocal emptyOnward weightLocal weightOnward share count).1 = false → emptyLocal = false)

/-- What the transmitters do at the end of a command reaches no table, record, clock, line or memory: it changes only the
Riser Port, the work that is due, the Event Unit, stale flags of displays, and the number of the next free value (R173 to
R177, R179, R194; log entry 36). -/
def Obligations.TransmittersTouchNothingElse : Prop :=
  ∀ s : State,
    s.sent = { s with
      due := s.sent.due, freeCount := s.sent.freeCount, riser := s.sent.riser, drops := s.sent.drops, latches := s.sent.latches, unsent := s.sent.unsent
      flushCount := s.sent.flushCount, discardCount := s.sent.discardCount } ∧
    ∀ c, s.sent.drop c = s.drop c ∨ ((s.drop c).kind = .roomPanel ∧ s.sent.drop c = { s.drop c with stale := true })

/-- The online state (R178 to R180): the expiry of the running timer makes it OFFLINE, and a message for this floor makes
it ONLINE again and restarts the timer; each change marks every room panel and raises its cause, and a restart while
ONLINE changes nothing else. No expiry falls for a start that such a message has replaced: one taken with more than the
last second left, or with the timer stopped, has no effect. That a timer with one second left may expire, and that each TIME
message taken since the start lets it expire one counted second sooner (R12), are the model's choice (log entry 49). -/
def Obligations.OnlineStateFollowsTimerAndMessages : Prop :=
  ∀ s : State, s.loading = false →
    (∀ n, s.atRest → s.riser.online = true → s.riser.offlineTimer = some n → n ≤ 1 + s.riser.offlineCuts →
      exec .offlineTimerExpiry s =
        .next (({ s.takeDue .offlineTimerExpiry with
          riser := { s.riser with online := false, offlineTimer := none } }.markAll).raise 120 .offline).sent) ∧
    (s.atRest → s.riser.online = false ∨ s.riser.offlineTimer = none ∨
        (∃ n, s.riser.offlineTimer = some n ∧ 1 + s.riser.offlineCuts < n) →
      exec .offlineTimerExpiry s = .next (s.takeDue .offlineTimerExpiry).sent) ∧
    (∀ d, s.isOwn d = true → 1 < s.floor.offlineTimeout → s.atRest →
      exec .offlineTimerExpiry (s.showTimer d) = .next ((s.showTimer d).takeDue .offlineTimerExpiry).sent) ∧
    (∀ d, s.isOwn d = true → s.riser.online = true →
      s.showTimer d = { s with
        riser := { s.riser with offlineTimer := some s.floor.offlineTimeout, offlineCuts := 0 } }) ∧
    (∀ d, s.isOwn d = true → s.riser.online = false →
      s.showTimer d =
        ({ s with riser := { s.riser with
            offlineTimer := some s.floor.offlineTimeout, offlineCuts := 0, online := true } }.markAll).raise 120 .online) ∧
    (∀ d, s.isOwn d = false → s.showTimer d = s) ∧
    (∀ c : DropCode, (s.drop c).kind = .roomPanel → validDrop c = true → (s.markAll.drop c).stale = true)

/-! ## Booking requests of the server -/

/-- A BOOK that passes the checks of R45 (R47): the record stands at the index the store chose, with the values of the
BOOK and the creation values, and in its day list; each order is in the pool for it, HELD or QUEUED; no other record is
changed but the one reclaimed; and the reply is ACCEPTED with the index. A room with a current reservation takes no BOOK
that would be DUE at once: the model's reading of R42 (log entry 44). The place of a new record (R26, R29): a list that is
full gives its own candidate's, else the lowest free index is taken, else the pool's candidate's; ROOM_LIST_FULL, POOL_FULL
and ORDER_POOL_FULL in that order. Which records are candidates (R27), the one chosen among them by closed at and then by
index (R28), and what its freeing leaves of it, of its day list, of its orders and of its room's displays (R30). -/
def Obligations.BookMakesItsRecord : Prop :=
  (∀ (s : State) (i : Nat), s.isCandidate i = true ↔ ∃ r, s.res i = some r ∧ r.dirty = false ∧
    (r.state = .released ∨ r.state = .cancelled ∨ (r.state = .ended ∧ (r.day = .past ∨
      (r.day = .today ∧ ∃ now, s.curSlot = some now ∧ min (r.stop + r.tail) 288 ≤ now)))) ∧
    ∀ id ∈ r.orders, ∀ o, s.order id = some o →
      o.state ≠ .held ∧ o.state ≠ .queued ∧ o.state ≠ .sent ∧ o.state ≠ .cancelPending) ∧
  (∀ (s : State) (is : List Nat),
    (s.earliest is = none ↔ ∀ i ∈ is, s.isCandidate i = false) ∧
    ∀ i, s.earliest is = some i → i ∈ is ∧ s.isCandidate i = true ∧
      ∀ j ∈ is, s.isCandidate j = true → j ≠ i → ∀ a b, (s.res i).bind Reservation.closedAt = some a →
        (s.res j).bind Reservation.closedAt = some b → a.slot ≤ 288 → b.slot ≤ 288 →
        let back (x : ClosedAt) : Nat := (s.clock.day + 65536 - x.day) % 65536
        back b < back a ∨ (back a = back b ∧ (a.slot < b.slot ∨ (a.slot = b.slot ∧ i < j)))) ∧
  (∀ (s : State) (room : Nat) (day : Day) (n : Nat),
    let list := s.dayList room day
    let gives (i : Nat) (reclaim : Option Nat) : Prop :=
      let freed := match reclaim.bind s.res with
        | some r => (s.orders.filter fun o => r.orders.contains o.id).length
        | none => 0
      (n ≤ 256 - s.orders.length + freed → s.allocate room day n = .ok { index := i, reclaim := reclaim }) ∧
      (256 - s.orders.length + freed < n → s.allocate room day n = .error .orderPoolFull)
    let full : Prop := ∀ j, j < 768 → s.res j ≠ none
    (32 ≤ list.length → s.earliest list = none → s.allocate room day n = .error .roomListFull) ∧
    (32 ≤ list.length → ∀ i, s.earliest list = some i → gives i (some i)) ∧
    (list.length < 32 → ∀ i, i < 768 → s.res i = none → (∀ j, j < i → s.res j ≠ none) → gives i none) ∧
    (list.length < 32 → full → s.earliest (List.range 768) = none → s.allocate room day n = .error .poolFull) ∧
    (list.length < 32 → full → ∀ i, s.earliest (List.range 768) = some i → gives i (some i))) ∧
  (∀ (s : State) (i : Nat) r, s.res i = some r →
    let t := s.freeRecord i
    (∀ x : Reservation, s.create { index := i, reclaim := some i } x = t.create { index := i, reclaim := none } x) ∧
    t.res i = none ∧ (∀ j, j ≠ i → t.res j = s.res j) ∧
    (r.room < 48 → t.dayList r.room r.day = (s.dayList r.room r.day).filter fun j => decide (j ≠ i)) ∧
    (∀ room, room ≠ r.room → t.room room = s.room room) ∧
    (∀ id, (id ∈ r.orders → t.order id = none) ∧ (id ∉ r.orders → t.order id = s.order id)) ∧
    (∀ d, t.drop d = if r.day = .today ∧ d ∈ s.boundPanels r.room then { s.drop d with stale := true } else s.drop d) ∧
    t.latches = s.latches ∧ t.riser = s.riser ∧ t.due = s.due) ∧
  ∀ (s : State) (tag : Tag) (room : Nat) (req : BookReq) (day : Day) (p : Place),
    let tail := (s.classOf room).turnaround + (if req.orders = [] then 0 else (s.classOf room).clean)
    s.accepts .book tag → s.catchUp = false → room < 48 → bookReqOk req = true → dayOf req.day = some day →
    (day = .today → s.clock.isSet = true) → s.badWindow req = false → (day = .today → s.reached req.stop = false) →
    (day = .today → (s.room room).service = .opened) → s.duplicateId room day req = false →
    s.conflict room day req.start req.stop tail none = none →
    (day = .today → s.reached req.start = true → s.current room = none) →
    s.allocate room day req.orders.length = .ok p →
    let t := s.taken (.book tag room req) .book tag
    let u := t.makeBooking room day req p
    exec (.book tag room req) s = .next (u.reply .book tag .accepted (.index p.index)).sent ∧
    u.res p.index = some
      { room := room, day := day, state := if day = .today ∧ s.reached req.start = true then .due else .booked
        start := req.start, stop := req.stop, tail := tail, origin := .server, serverId := some req.serverId
        organiser := req.organiser, early := false, checkIn := none, endReason := none, closedAt := none, occupied := 0
        orders := req.orders.map OrderReq.id, cateringFault := false, version := 0, dirty := false } ∧
    p.index ∈ u.dayList room day ∧
    (∀ o ∈ req.orders, ∃ x ∈ u.orders, x.id = o.id ∧ x.res = p.index ∧ x.pantry = o.pantry ∧ x.deliverBy = o.deliverBy ∧
      x.cutoff = min o.cutoff o.deliverBy ∧ x.lines = o.lines ∧ (x.state = .held ∨ x.state = .queued)) ∧
    (∀ j, j ≠ p.index → p.reclaim ≠ some j → u.res j = s.res j) ∧
    u.clock = s.clock ∧ u.evidence = s.evidence ∧ u.lines = s.lines ∧ u.latches = s.latches

/-- The refusals of a BOOK, each with the checks before it passed (R45, R46). A refused BOOK has no effect but its
reply. A BOOK that meets no blocked window and would be DUE at once in a room with a current reservation is refused with
CONFLICT and that one's index: the model's reading of R42 (log entry 44). During a catch-up a BOOK waits (R18; log entry
31), and its form is checked as it is then taken (R203). -/
def Obligations.BookRefusalsInOrder : Prop :=
  ∀ (s : State) (tag : Tag) (room : Nat) (req : BookReq),
    let c : Instr := .book tag room req
    let tail := (s.classOf room).turnaround + (if req.orders = [] then 0 else (s.classOf room).clean)
    let refused (code : Code) (body : Body) : Prop := exec c s = .next (s.replies c .book tag code body)
    s.accepts .book tag → room < 48 →
    (s.catchUp = false → bookReqOk req = false → refused .badMessage .none) ∧
    (s.catchUp = true →
      exec c s = .next { s.taken c .book tag with due := s.holdBack c c }.sent) ∧
    ∀ day, bookReqOk req = true → dayOf req.day = some day → s.catchUp = false →
      (day = .today → s.clock.isSet = false → refused .noTime .none) ∧
      ((day = .today → s.clock.isSet = true) →
        (s.badWindow req = true → refused .badWindow .none) ∧
        (s.badWindow req = false →
          (day = .today → s.reached req.stop = true → refused .past .none) ∧
          ((day = .today → s.reached req.stop = false) →
            (day = .today → (s.room room).service ≠ .opened → refused .roomClosed .none) ∧
            ((day = .today → (s.room room).service = .opened) →
              (s.duplicateId room day req = true → refused .duplicateId .none) ∧
              (s.duplicateId room day req = false →
                (∀ i, s.conflict room day req.start req.stop tail none = some i → refused .conflict (.index i)) ∧
                (s.conflict room day req.start req.stop tail none = none → day = .today → s.reached req.start = true →
                  ∀ i r, s.current room = some (i, r) → refused .conflict (.index i)) ∧
                (∀ code, s.conflict room day req.start req.stop tail none = none →
                  (day = .today → s.reached req.start = true → s.current room = none) →
                  s.allocate room day req.orders.length = .error code → refused code .none))))))

/-- The blocked windows by state (R43), and the conflicting record: the first of the day list, the excepted one left out,
whose blocked window shares a slot with the candidate's effective window (R44). -/
def Obligations.ConflictIsFirstMeetingWindow : Prop :=
  (∀ r : Reservation,
    (r.state = .booked → r.blocked = some (r.start, min (r.stop + r.tail) 288)) ∧
    (r.state = .due ∨ r.state = .inUse → r.blocked = some (0, min (r.stop + r.tail) 288)) ∧
    (r.state = .ended → r.blocked = some (r.stop, min (r.stop + r.tail) 288)) ∧
    (r.state = .released ∨ r.state = .cancelled → r.blocked = none)) ∧
  ∀ (s : State) (room : Nat) (day : Day) (start stop tail : Nat) (except : Option Nat),
    let hit (j : Nat) : Prop := some j ≠ except ∧ ∃ r w k, s.res j = some r ∧ r.blocked = some w ∧
      start ≤ k ∧ k < min (stop + tail) 288 ∧ w.1 ≤ k ∧ k < w.2
    (∀ i, s.conflict room day start stop tail except = some i ↔
      ∃ before after, s.dayList room day = before ++ i :: after ∧ hit i ∧ ∀ j ∈ before, ¬ hit j) ∧
    (s.conflict room day start stop tail except = none ↔ ∀ j ∈ s.dayList room day, ¬ hit j)

/-- An ALTER (R48 to R50): one that resolves and passes its checks gives its record the resulting window as one change and
is answered OK with the version after it; one that leaves the window as it was changes nothing; a failed reference or
check has no effect but its reply; and the checks fail in the order of R49, for any live record and its orders. A record
whose start moves takes its new place in its day list, and its HELD orders' deliver-by and cutoff slots move with it, kept
to 0..287, with the late flag and the window tested again (R50, R93). A record that would be DUE at once in a room with
another current reservation is refused with CONFLICT and that one's index: the model's reading of R42 (log entry 44), as are
a reference of day PAST as BAD_MESSAGE (log entry 27) and the present start as the resulting one where none is given (log
entry 38). During a catch-up one waits (R18; log entry 31), and what R48 and R49 have refused with BAD_MESSAGE is checked as it is
then taken; one in FLOOR form with no day of R203 in its reference the Management Engine refuses before (R183). -/
def Obligations.AlterGivesTheWindow : Prop :=
  ∀ (s : State) (tag : Tag) (room : Option Nat) (req : AlterReq),
    let c : Instr := .alter tag room req
    let t := s.taken c .alter tag
    s.accepts .alter tag → (room = none → s.restart = none ∧ s.inTurn c) →
    let unread : Prop := room = none ∧ ∃ id day, req.ref = .serverId id day ∧ 1 < day
    (unread ∨ (s.catchUp = false ∧ alterFormOk room req = false) →
      exec c s = .next (s.replies c .alter tag .badMessage .none)) ∧
    (¬ unread → s.catchUp = true → exec c s = .next { t with due := s.holdBack c c }.sent) ∧
    (s.catchUp = false → ∀ code, alterFormOk room req = true → s.resolve room req.ref = .error code →
      exec c s = .next (s.replies c .alter tag code .none)) ∧
    ∀ i r, s.catchUp = false → alterFormOk room req = true → s.resolve room req.ref = .ok (i, r) →
      let moved : Prop := req.newStart.getD r.start ≠ r.start
      let w := s.alterWindow r req
      let running : Prop := r.state = .due ∨ r.state = .inUse
      let stop := req.newEnd.getD r.stop
      let held : Prop := ∀ id ∈ r.orders, ∃ o, s.order id = some o ∧ o.state = .held
      let open_ : Prop := (r.day = .today → s.clock.isSet = true) ∧ r.state.live = true ∧ r.day ≠ .past ∧
        (moved → r.state = .booked ∧ held)
      let bookedToday : Prop := r.state = .booked ∧ r.day = .today
      (w.1 = req.newStart.getD r.start ∧
        (∀ now, s.curSlot = some now → running → stop ≤ now → w.2 = now + 1) ∧
        (∀ now, s.curSlot = some now → ¬ running ∨ now < stop → w.2 = stop) ∧ (s.curSlot = none → w.2 = stop)) ∧
      (∀ code body, s.alterChecks i r req = .error (code, body) → exec c s = .next (s.replies c .alter tag code body)) ∧
      (∀ w', s.alterChecks i r req = .ok w' → w' = w ∧
        exec c s = .next ((t.applyAlter i r w).reply .alter tag .ok
          (.altered i ((t.applyAlter i r w).versionOf i) w.1 w.2)).sent ∧
        (w = (r.start, r.stop) → t.applyAlter i r w = t) ∧
        (∀ j, j ≠ i → (t.applyAlter i r w).res j = s.res j) ∧
        (w.1 ≠ r.start → s.res i = some r → r.room < 48 →
          ∃ before after, (s.dayList r.room r.day).filter (fun j => decide (j ≠ i)) = before ++ after ∧
            (t.applyAlter i r w).dayList r.room r.day = before ++ i :: after ∧
            (∀ j ∈ before, s.startOf j ≤ w.1) ∧ ∀ j, after.head? = some j → w.1 < s.startOf j) ∧
        (w.1 ≠ r.start → s.res i = some r → r.orders.Nodup → ∀ id ∈ r.orders, ∀ o, s.order id = some o → o.res = i →
          o.state = .held →
          let along (x : Nat) : Nat := (max 0 (min 287 ((x : Int) + w.1 - r.start))).toNat
          let opened : Prop := r.day = .today ∧ ∃ now, s.curSlot = some now ∧
            along o.deliverBy - (s.pantry o.pantry).lead ≤ now
          ∃ x, (t.applyAlter i r w).order id = some { o with
              deliverBy := along o.deliverBy, cutoff := along o.cutoff, state := x
              late := decide (r.day = .today) && s.reached (along o.deliverBy) } ∧
            (opened → x = .queued ∧ (o.pantry < 8 → id ∈ ((t.applyAlter i r w).pantry o.pantry).dispatch)) ∧
            (¬ opened → x = .held)) ∧
        (w ≠ (r.start, r.stop) → s.res i = some r →
          (t.applyAlter i r w).res i = some { r with
            start := w.1, stop := w.2, version := r.version + 1
            early := if w.1 = r.start then r.early else false
            state := if r.state = .booked ∧ r.day = .today ∧ s.reached w.1 = true then .due else r.state })) ∧
      (r.day = .today → s.clock.isSet = false → s.alterChecks i r req = .error (.noTime, .none)) ∧
      ((r.day = .today → s.clock.isSet = true) →
        r.state.live = false ∨ r.day = .past ∨ (moved ∧ (r.state ≠ .booked ∨ ¬ held)) →
        s.alterChecks i r req = .error (.badState, .none)) ∧
      (open_ → 287 < w.1 ∨ 288 < w.2 ∨ w.2 ≤ w.1 → s.alterChecks i r req = .error (.badWindow, .none)) ∧
      (open_ → w.1 ≤ 287 → w.2 ≤ 288 → w.1 < w.2 →
        (bookedToday → s.reached w.2 = true → s.alterChecks i r req = .error (.past, .none)) ∧
        (bookedToday → s.reached w.2 = false → s.reached w.1 = true → (s.room r.room).service ≠ .opened →
          s.alterChecks i r req = .error (.roomClosed, .none)) ∧
        ((bookedToday → s.reached w.2 = false) →
          (bookedToday → s.reached w.1 = true → (s.room r.room).service = .opened) →
          let dueNow : Prop := bookedToday ∧ s.reached w.1 = true ∧ w ≠ (r.start, r.stop)
          let clear : Prop := s.conflict r.room r.day w.1 w.2 r.tail (some i) = none
          (∀ j, s.conflict r.room r.day w.1 w.2 r.tail (some i) = some j →
            s.alterChecks i r req = .error (.conflict, .index j)) ∧
          (∀ j x, clear → dueNow → s.current r.room = some (j, x) →
            s.alterChecks i r req = .error (.conflict, .index j)) ∧
          (clear → (dueNow → s.current r.room = none) → s.alterChecks i r req = .ok w)))

/-- A WITHDRAW (R51): a live record becomes CANCELLED with end reason WITHDRAWN, its window, check-in and dirty flag kept,
a withdraw notice is handed over when it has an order, and the reply is OK with the version after the change; a record
that is terminal or PAST is answered BAD_STATE; a reference that fails is answered with its code (R48). That closed at takes
slot 0 while the clock is unset is the model's choice (log entry 26), and that a reference of day PAST is BAD_MESSAGE its
reading (log entry 27). During a catch-up one waits (R18; log entry 31), but one in FLOOR form with no day of R203 in its
reference, which the Management Engine refuses before (R183). What a reference names, of an ALTER as of a WITHDRAW (R48): the
record at an index, or the live record of the room's day list with the server ID; NOT_FOUND for a free record, for one of
another room than the one addressed and for a server ID that no record of the list holds; BAD_STATE where only terminal
records hold it; BAD_MESSAGE for an index above 767 and for a server ID in FLOOR form. -/
def Obligations.WithdrawCancelsItsRecord : Prop :=
  (∀ (s : State) (i : Nat),
    (s.res i = none → ∀ room, s.resolve room (.index i) = .error .notFound) ∧
    ∀ r, s.res i = some r →
      s.resolve none (.index i) = .ok (i, r) ∧ s.resolve (some r.room) (.index i) = .ok (i, r) ∧
      ∀ room, room ≠ r.room → s.resolve (some room) (.index i) = .error .notFound) ∧
  (∀ (s : State) (room n : Nat) (id : ServerId) (day : Day), dayOf n = some day →
    let named (i : Nat) (r : Reservation) : Prop :=
      i ∈ s.dayList room day ∧ s.res i = some r ∧ r.serverId = some id
    ((∀ i r, ¬ named i r) → s.resolve (some room) (.serverId id n) = .error .notFound) ∧
    (∀ i r, named i r → (∀ j x, named j x → x.state.live = false) →
      s.resolve (some room) (.serverId id n) = .error .badState) ∧
    ∀ i r, named i r → r.state.live = true → (∀ j x, named j x → x.state.live = true → j = i) →
      s.resolve (some room) (.serverId id n) = .ok (i, r)) ∧
  (∀ room i, refFormOk room (.index i) = decide (i ≤ 767)) ∧
  (∀ room id n, refFormOk room (.serverId id n) = (room.isSome && decide (n ≤ 1))) ∧
  (∀ n, (dayOf n = some .today ↔ n = 0) ∧ (dayOf n = some .next ↔ n = 1) ∧ (dayOf n = none ↔ 1 < n)) ∧
  ∀ (s : State) (tag : Tag) (room : Option Nat) (ref : Ref),
    let c : Instr := .withdraw tag room ref
    let t := s.taken c .withdraw tag
    s.accepts .withdraw tag → (room = none → s.restart = none ∧ s.inTurn c) →
    let unread : Prop := room = none ∧ ∃ id day, ref = .serverId id day ∧ 1 < day
    (unread ∨ (s.catchUp = false ∧ refFormOk room ref = false) →
      exec c s = .next (s.replies c .withdraw tag .badMessage .none)) ∧
    (¬ unread → s.catchUp = true → exec c s = .next { t with due := s.holdBack c c }.sent) ∧
    (s.catchUp = false → ∀ code, refFormOk room ref = true → s.resolve room ref = .error code →
      exec c s = .next (s.replies c .withdraw tag code .none)) ∧
    ∀ i r, s.catchUp = false → refFormOk room ref = true → s.resolve room ref = .ok (i, r) → i < 768 → s.res i = some r →
      (r.state.live = false ∨ r.day = .past → exec c s = .next (s.replies c .withdraw tag .badState .none)) ∧
      (r.state.live = true → r.day ≠ .past →
        let u := t.finish i .cancelled .withdrawn { day := s.clock.day, slot := s.curSlot.getD 0 } false none
        exec c s = .next (u.reply .withdraw tag .ok (.withdrawn i (r.version + 1))).sent ∧
        u.res i = some { r with
          state := .cancelled, endReason := some .withdrawn, version := r.version + 1
          closedAt := some { day := s.clock.day, slot := s.curSlot.getD 0 } } ∧
        (∀ j, j ≠ i → u.res j = s.res j) ∧
        u.due = t.due ++ (if r.orders = [] then [] else [Instr.withdrawNotice i none]) ∧
        u.orders = s.orders ∧ u.pantries = s.pantries ∧ u.clock = s.clock ∧ u.evidence = s.evidence ∧ u.lines = s.lines)

/-! ## CONTENT and SERVICE -/

/-- A CONTENT for a room (R162): a copy at the tail of the FIFO of each bound panel that is not ISOLATED and has space,
answered with their number; QUEUE_FULL when none has space and NOT_PRESENT when there is no such panel. -/
def Obligations.ContentReachesTheRoomsPanels : Prop :=
  ∀ (s : State) (tag : Tag) (room : Nat) (state : Byte) (text : Bytes),
    let c : Instr := .contentRoom tag room state text
    let eligible := (s.boundPanels room).filter fun d => decide ((s.drop d).mode ≠ .isolated)
    let free := eligible.filter fun d => decide ((s.drop d).fifo.length < 4)
    s.accepts .content tag → room < 48 → text.length ≤ 239 →
    (eligible = [] → exec c s = .next (s.replies c .content tag .notPresent .none)) ∧
    (eligible ≠ [] → free = [] → exec c s = .next (s.replies c .content tag .queueFull .none)) ∧
    (free ≠ [] → ∃ u : State,
      exec c s = .next (u.reply .content tag .ok (.copies free.length)).sent ∧
      (∀ d ∈ free, u.drop d = { s.drop d with fifo := (s.drop d).fifo ++ [.content state text] }) ∧
      (∀ d, d ∉ free → u.drop d = s.drop d) ∧
      u = { s.taken c .content tag with drops := u.drops })

/-- A CONTENT or SERVICE for a drop (R163, R164): BAD_MESSAGE for a drop of another kind, DROP_ISOLATED, QUEUE_FULL, or the
item at the tail of the FIFO. -/
def Obligations.ContentAndServiceReachTheDrop : Prop :=
  ∀ (s : State) (tag : Tag) (drop : DropCode), validDrop drop = true →
    let k := (s.drop drop).kind
    let queued (c : Instr) (kind : MsgKind) (item : Item) : State :=
      (s.taken c kind tag).modDrop drop fun d => { d with fifo := d.fifo ++ [item] }
    (∀ state text, let c : Instr := .contentDrop tag drop state text
      s.accepts .content tag → text.length ≤ 239 →
      (k ≠ .roomPanel → exec c s = .next (s.replies c .content tag .badMessage .none)) ∧
      (k = .roomPanel → (s.drop drop).mode = .isolated → exec c s = .next (s.replies c .content tag .dropIsolated .none)) ∧
      (k = .roomPanel → (s.drop drop).mode ≠ .isolated → 4 ≤ (s.drop drop).fifo.length →
        exec c s = .next (s.replies c .content tag .queueFull .none)) ∧
      (k = .roomPanel → (s.drop drop).mode ≠ .isolated → (s.drop drop).fifo.length < 4 →
        exec c s = .next ((queued c .content (.content state text)).reply .content tag .ok (.copies 1)).sent)) ∧
    (∀ body, let c : Instr := .service tag drop body
      s.accepts .service tag → body.length ≤ 240 →
      (k = .pantry → exec c s = .next (s.replies c .service tag .badMessage .none)) ∧
      (k = .roomPanel ∨ k = .roomSensor → (s.drop drop).mode = .isolated →
        exec c s = .next (s.replies c .service tag .dropIsolated .none)) ∧
      (k = .roomPanel ∨ k = .roomSensor → (s.drop drop).mode ≠ .isolated → 4 ≤ (s.drop drop).fifo.length →
        exec c s = .next (s.replies c .service tag .queueFull .none)) ∧
      (k = .roomPanel ∨ k = .roomSensor → (s.drop drop).mode ≠ .isolated → (s.drop drop).fifo.length < 4 →
        exec c s = .next ((queued c .service (.service body)).reply .service tag .ok .none).sent))

/-! ## The clock -/

/-- A TIME message (R16): BAD_MESSAGE out of range, BUSY while a step or a boundary is in progress, a boundary that is raised
and not yet begun among them (the model's reading, log entry 28), and otherwise taken with its kind. A taken one sets the clock and the periods of its second, which every running timer notes (log entry 49), marks every room panel, hands over its catch-up and
the completion of the step, and answers nothing yet; the reply is placed at the completion, when no boundary is left of the
work due ahead of it, which is the step's own; until then the completion waits in its place (log entry 30). -/
def Obligations.TimeStepsAndTheirReply : Prop :=
  ∀ s : State,
    (∀ tag day minute seconds, s.accepts .time tag → day < 65536 →
      let c : Instr := .time tag day minute seconds
      let t := s.taken c .time tag
      (1440 ≤ minute ∨ 60 ≤ seconds → exec c s = .next (s.replies c .time tag .badMessage .none)) ∧
      (minute < 1440 → seconds < 60 → s.clockBusy = true → exec c s = .next (s.replies c .time tag .busy .none)) ∧
      (minute < 1440 → seconds < 60 → s.clockBusy = false →
        let kind := s.clock.classify day minute seconds
        let work := s.clock.catchUp kind day minute seconds
        let u := if kind = .flush then t.dayFlush else t
        exec c s = .next { u.markAll with
          clock := { isSet := true, seconds := seconds, minute := minute, day := day, periods := 0 }
          timeStep := some { tag := tag, kind := kind, day := day, minute := minute, seconds := seconds,
                             boundaries := work.2 }
          riser := { u.riser with offlineCuts := u.riser.offlineCuts + 1 }
          pantries := u.pantries.map fun (p : Pantry) =>
            { p with replayTimer := p.replayTimer.map fun (x : ReplayTimer) => { x with cuts := x.cuts + 1 } }
          due := u.due ++ work.1 ++ [Instr.timeStepComplete] }.sent)) ∧
    (∀ step, s.atRest → s.timeStep = some step → (s.ahead .timeStepComplete).any isBoundaryWork = false →
      exec .timeStepComplete s =
        .next ({ s.takeDue .timeStepComplete with timeStep := none }.reply .time step.tag .ok (.timeStep step)).sent) ∧
    (s.atRest → Instr.timeStepComplete ∈ s.due → (s.ahead .timeStepComplete).any isBoundaryWork = true →
      exec .timeStepComplete s = .next s.sent) ∧
    (∀ before after, Instr.timeStepComplete ∉ before → s.due = before ++ Instr.timeStepComplete :: after →
      s.ahead .timeStepComplete = before) ∧
    (∀ day minute seconds,
      (s.clock.isSet = false → s.clock.classify day minute seconds = .firstSet) ∧
      (s.clock.isSet = true → day = s.clock.day →
        s.clock.minute * 60 + s.clock.seconds ≤ minute * 60 + seconds →
        s.clock.classify day minute seconds = .forward) ∧
      (s.clock.isSet = true → day = s.clock.day →
        minute * 60 + seconds < s.clock.minute * 60 + s.clock.seconds →
        s.clock.classify day minute seconds = .backward) ∧
      (s.clock.isSet = true → day ≠ s.clock.day → day = (s.clock.day + 1) % 65536 →
        s.clock.classify day minute seconds = .nextDay) ∧
      (s.clock.isSet = true → day ≠ s.clock.day → day ≠ (s.clock.day + 1) % 65536 →
        s.clock.classify day minute seconds = .flush))

/-- The boundaries a TIME step runs (R17 to R20): FIRST_SET runs every slot from 0 to the new current slot; FORWARD runs
exactly the slots whose instant lies after the old time and at or before the new one; NEXT_DAY runs the rest of the old
day, the day boundary and the new day's slots; each run goes up in slots, and no step runs more than 576. That each slot is
handed to the Booking Engine and then to the Dispatcher is the model's choice of an order for two blocks that take it
independently (R14; log entries 1 and 2). -/
def Obligations.CatchUpRunsSkippedBoundaries : Prop :=
  ∀ (c : Clock) (day minute seconds : Nat), c.ok → minute < 1440 → seconds < 60 →
    let both (d : Nat) (ks : List Nat) : List Instr := ks.flatMap fun k => [Instr.bookingSlotRun d k, Instr.dispatcherSlotRun k]
    let old := c.minute * 60 + c.seconds
    let new := minute * 60 + seconds
    c.catchUp .firstSet day minute seconds = (both day (List.range (minute / 5 + 1)), minute / 5 + 1) ∧
    (∃ ks : List Nat, c.catchUp .forward day minute seconds = (both day ks, ks.length) ∧ ks.Pairwise (· < ·) ∧
      ∀ k, k ∈ ks ↔ k < 288 ∧ old < 300 * k ∧ 300 * k ≤ new) ∧
    (∃ ks js : List Nat,
      c.catchUp .nextDay day minute seconds =
        (both c.day ks ++ [Instr.dayBoundary c.day] ++ both day js, ks.length + 2 + js.length) ∧
      ks.Pairwise (· < ·) ∧ js.Pairwise (· < ·) ∧ (∀ k, k ∈ ks ↔ k < 288 ∧ old < 300 * k) ∧
      (∀ k, k ∈ js ↔ 1 ≤ k ∧ k ≤ minute / 5) ∧ ks.length + 2 + js.length ≤ 576) ∧
    c.catchUp .backward day minute seconds = ([], 0) ∧ c.catchUp .flush day minute seconds = ([], 0)

/-- A second of the clock (R12 to R15) outside the boot load: the clock goes on by one second of the day, with the day
number at midnight; a second that is a multiple of ten hands over an evidence tick; a set clock that passes into a slot's
minute hands over its boundary, and into midnight the day boundary; and a slot boundary marks every room panel and goes to
the Booking Engine and the Dispatcher, in its own place among the work that is due (R14, R94). That the second also counts
down the offline timer and the replay timers is the model's reading (log entry 21), and the order in which the two blocks'
runs are handed over its choice (log entry 2). -/
def Obligations.ClockSecondRaisesItsBoundaries : Prop :=
  ∀ s : State, s.atRest →
    let t := s.takeDue .clockSecond
    let old := s.clock.minute * 60 + s.clock.seconds
    let new := (old + 1) % 86400
    (s.loading = true → exec .clockSecond s = .next t.sent) ∧
    (s.loading = false → s.clock.ok →
      exec .clockSecond s = .next { t with
        clock := { s.clock with
          seconds := new % 60, minute := new / 60, periods := 0
          day := if new = 0 then (s.clock.day + 1) % 65536 else s.clock.day }
        riser := { s.riser with offlineTimer := s.riser.offlineTimer.map fun n => n - 1 }
        pantries := s.pantries.map fun (p : Pantry) =>
          { p with replayTimer := p.replayTimer.map fun (x : ReplayTimer) => { x with left := x.left - 1000 } }
        due := t.due ++ (if new % 10 = 0 then [Instr.evidenceTick] else []) ++
          (if s.clock.isSet = true ∧ new = 0 then [Instr.dayBoundary s.clock.day]
           else if s.clock.isSet = true ∧ new % 300 = 0 then [Instr.slotBoundary s.clock.day (new / 300)] else []) }.sent) ∧
    ∀ day k, s.clock.isSet = true →
      let c : Instr := .slotBoundary day k
      let runs : List Instr := [.bookingSlotRun day k, .dispatcherSlotRun k]
      (c ∉ s.due → exec c s = .next { s.markAll with due := s.due ++ runs }.sent) ∧
      ∀ before after, c ∉ before → s.due = before ++ c :: after →
        exec c s = .next { s.markAll with due := before ++ runs ++ after }.sent

/-- The Booking Engine's run of a boundary (R59 to R62): ends, then grace expiries, then starts, each over every room's
TODAY list; a boundary of a TIME step's catch-up also marks every room panel (R159). What each phase makes of one record
is the table of R60, R61 or R62. While an earlier boundary of the block is due ahead of it the run waits in its place (R14,
R18; log entry 31). That the grace expiry of a catch-up makes the check-in of R61 is the model's reading (log entry 43), and
that a run takes the rooms by ascending index, which fixes the order of its CLOSE_DONE causes and its notices, its choice
(log entry 13). What the end of a record is, here and by any request: its state, end reason, closed at and dirty flag in one
change with its version (R31, R33) that marks its room's displays (R159); with the IN_USE record that it waited for, a
CLOSING room goes to CLOSED and raises CLOSE_DONE, and no OPEN or CLOSED one changes (R8); and a RELEASED or CANCELLED record
with an order has its withdraw notice handed over (R63), one of a boundary before the Dispatcher's next, another behind all
that is due (log entry 2). -/
def Obligations.BookingRunHasThreePhases : Prop :=
  (∀ (s : State) (i : Nat) (st : ResState) (why : EndReason) (at_ : ClosedAt) (dirty : Bool) (slot : Option Nat) r,
    s.res i = some r →
    let u := s.finish i st why at_ dirty slot
    let notice : Prop := (st = .released ∨ st = .cancelled) ∧ r.orders ≠ []
    let closes : Prop := r.state = .inUse ∧ (s.room r.room).service = .closing
    u.res i = some { r with
      state := st, endReason := some why, closedAt := some at_, dirty := r.dirty || dirty, version := r.version + 1 } ∧
    (∀ j, j ≠ i → u.res j = s.res j) ∧
    (¬ notice → u.due = s.due) ∧
    (notice → slot = none → u.due = s.due ++ [Instr.withdrawNotice i none]) ∧
    (notice → ∀ k, slot = some k →
      (s.due.any isDispatcherBoundary = false → u.due = s.due ++ [Instr.withdrawNotice i (some k)]) ∧
      ∀ before b after, s.due = before ++ b :: after → before.any isDispatcherBoundary = false →
        isDispatcherBoundary b = true → u.due = before ++ Instr.withdrawNotice i (some k) :: b :: after) ∧
    (closes → u.rooms = (s.closeDone r.room).rooms ∧ u.latches = (s.closeDone r.room).latches ∧
      u.riser = (s.closeDone r.room).riser ∧ u.unsent = (s.closeDone r.room).unsent) ∧
    (¬ closes → u.rooms = s.rooms ∧ u.latches = s.latches ∧ u.riser = s.riser ∧ u.unsent = s.unsent) ∧
    (∀ d, r.day = .today ∨ closes → d ∈ s.boundPanels r.room → (u.drop d).stale = true) ∧
    (∀ d, d ∉ s.boundPanels r.room → u.drop d = s.drop d) ∧
    u.orders = s.orders ∧ u.pantries = s.pantries ∧ u.clock = s.clock ∧ u.evidence = s.evidence ∧ u.lines = s.lines) ∧
  (∀ (s : State) (room : Nat),
    let u := s.closeDone room
    ((s.room room).service ≠ .closing → u = s) ∧
    ((s.room room).service = .closing →
      u = ((s.modRoom room fun e => { e with service := .closed }).markRoom room).raise (72 + room) .closeDone ∧
      u.room room = { s.room room with service := .closed } ∧ (∀ j, j ≠ room → u.room j = s.room j) ∧
      (∀ d, u.drop d = if d ∈ s.boundPanels room then { s.drop d with stale := true } else s.drop d) ∧
      (room < 48 → (u.latch (72 + room)).isSet = true) ∧ u.pool = s.pool ∧ u.due = s.due)) ∧
  ∀ (s : State) (day k : Nat),
    (s.atRest →
      let c : Instr := .bookingSlotRun day k
      let t := s.takeDue c
      let u := if c ∈ s.stepWork then t.markAll else t
      ((s.ahead c).any isBookingBoundary = false → exec c s =
        .next (((u.eachToday (State.endAt day k)).eachToday (State.judgeAt day k)).eachToday (State.startAt day k)).sent) ∧
      (c ∈ s.due → (s.ahead c).any isBookingBoundary = true → exec c s = .next s.sent)) ∧
    ∀ i r, s.res i = some r →
      let at_ : ClosedAt := { day := day, slot := k }
      let g := (s.classOf r.room).grace
      (r.stop = k → r.state = .inUse → State.endAt day k s i = s.finish i .ended .normalEnd at_ false (some k)) ∧
      (r.stop = k → r.state = .due → State.endAt day k s i = s.finish i .ended .endUnused at_ true (some k)) ∧
      (r.stop ≠ k ∨ (r.state ≠ .inUse ∧ r.state ≠ .due) → State.endAt day k s i = s) ∧
      (r.state = .due → r.start + g ≤ k → (s.ev r.room).verdict = .vacant ∨ (s.ev r.room).verdict = .noSensor →
        State.judgeAt day k s i = s.finish i .released .noShow at_ true (some k)) ∧
      (r.state = .due → r.start + g ≤ k → (s.ev r.room).verdict = .occupied → (s.classOf r.room).presence = true →
        State.judgeAt day k s i = s.changeRes i fun r =>
          { r with state := .inUse, checkIn := some { slot := k, how := .presence }, dirty := true }) ∧
      ((s.ev r.room).verdict = .unknown ∨ ((s.ev r.room).verdict = .occupied ∧ (s.classOf r.room).presence = false) ∨
        r.state ≠ .due ∨ k < r.start + g → State.judgeAt day k s i = s) ∧
      (r.state = .booked → r.start = k → (s.room r.room).service ≠ .opened →
        State.startAt day k s i = s.finish i .cancelled .roomClosed at_ true (some k)) ∧
      (r.state = .booked → r.start = k → (s.room r.room).service = .opened → r.early = true →
        State.startAt day k s i = s.changeRes i fun r =>
          { r with state := .inUse, checkIn := some { slot := k, how := .key } }) ∧
      (r.state = .booked → r.start = k → (s.room r.room).service = .opened → r.early = false →
        State.startAt day k s i = s.changeRes i fun r => { r with state := .due }) ∧
      (r.state ≠ .booked ∨ r.start ≠ k → State.startAt day k s i = s)

/-- The Dispatcher's run of a boundary (R93, R94): it leaves no HELD order of a TODAY reservation whose window has opened,
makes no change but HELD to QUEUED, and puts each order so changed, and no other, into its pantry's dispatch queue, which
stays in the order of deliver-by slots, later entries after earlier ones with the same slot (R95). While an earlier
boundary of the Dispatcher is due ahead of it the run waits in its place (R94; log entry 31). -/
def Obligations.DispatcherRunOpensWindows : Prop :=
  (∀ (s : State) (k : Nat), s.atRest → Instr.dispatcherSlotRun k ∈ s.due →
    (s.ahead (.dispatcherSlotRun k)).any isDispatcherBoundary = true → exec (.dispatcherSlotRun k) s = .next s.sent) ∧
  (∀ (s : State) (k : Nat) (id : OrderId) o, s.order id = some o → o.state = .held → s.orderDay o = some .today →
    o.deliverBy - (s.pantry o.pantry).lead ≤ k → o.pantry < 8 → ∃ before after,
      (s.pantry o.pantry).dispatch = before ++ after ∧
      ((s.testWindow k id).pantry o.pantry).dispatch = before ++ id :: after ∧
      (∀ x ∈ before, s.deliverBy x ≤ o.deliverBy) ∧ ∀ x, after.head? = some x → o.deliverBy < s.deliverBy x) ∧
  ∀ (s : State) (k : Nat), s.atRest → (s.ahead (.dispatcherSlotRun k)).any isDispatcherBoundary = false →
    ∃ u : State,
    exec (.dispatcherSlotRun k) s = .next u.sent ∧
    (∀ id o, s.order id = some o → o.state = .held → s.orderDay o = some .today →
      o.deliverBy - (s.pantry o.pantry).lead ≤ k → o.pantry < 8 → id ∈ (u.pantry o.pantry).dispatch) ∧
    (∀ p, ((s.pantry p).dispatch).Sublist (u.pantry p).dispatch ∧
      (∀ id ∈ (u.pantry p).dispatch, id ∈ (s.pantry p).dispatch ∨ ∃ o, s.order id = some o ∧ o.pantry = p ∧
        o.state = .held ∧ (u.order id).map Order.state = some .queued) ∧
      ((s.pantry p).dispatch.Pairwise (fun a b => s.deliverBy a ≤ s.deliverBy b) →
        (u.pantry p).dispatch.Pairwise fun a b => u.deliverBy a ≤ u.deliverBy b)) ∧
    (∀ id o, u.order id = some o → o.state = .held → u.orderDay o = some .today →
      k < o.deliverBy - (u.pantry o.pantry).lead) ∧
    (∀ id o, s.order id = some o → ∃ x, u.order id = some { o with state := x } ∧
      (x = o.state ∨ (o.state = .held ∧ x = .queued ∧ s.orderDay o = some .today ∧
        o.deliverBy - (s.pantry o.pantry).lead ≤ k))) ∧
    (∀ p, { u.pantry p with dispatch := [] } = { s.pantry p with dispatch := [] }) ∧
    u.pool = s.pool ∧ u.rooms = s.rooms ∧ u.clock = s.clock ∧ u.riser = s.riser ∧ u.latches = s.latches ∧
    u.lines = s.lines ∧ u.drops = s.drops ∧ u.evidence = s.evidence

/-- The day boundary (R15): the slot-288 boundary of the old day, the rollover, the slot-0 boundary of the new day, and the
marking of every room panel, once no earlier boundary is due ahead of it (log entry 31). The rollover frees the PAST set
with its orders, removes the frames and CANCELs of those still open and reports the dirty records lost (R37); then, room by
room, it moves each TODAY record with its orders settled to PAST, or frees it when it is clean and none of its orders is
SENT or CANCEL_PENDING (R38); then makes each NEXT list the TODAY list, with the version of its records one on, and leaves
no NEXT list a record (R40). -/
def Obligations.DayBoundaryHasThreeParts : Prop :=
  (∀ s : State, s.rollover =
    ((List.range 48).foldl State.promote ((List.range 48).foldl (fun t room => ((t.room room).today).foldl State.retire t)
      s.rollPast)).markAll) ∧
  (∀ s : State,
    let u := s.rollPast
    let past (i : Nat) : Prop := ∃ r, s.res i = some r ∧ r.day = .past
    let listed (id : OrderId) : Prop := ∃ i r, s.res i = some r ∧ r.day = .past ∧ id ∈ r.orders
    let lost := ((List.range 768).filter fun i => (s.res i).any fun r => decide (r.day = .past) && r.dirty).length
    (∀ i, (past i → u.res i = none) ∧ (¬ past i → u.res i = s.res i)) ∧
    (∀ id, (listed id → u.order id = none) ∧ (¬ listed id → u.order id = s.order id)) ∧
    (u.latches = (s.raiseDiscarded lost).latches ∧ u.unsent = (s.raiseDiscarded lost).unsent ∧
      u.discardCount = (s.raiseDiscarded lost).discardCount ∧ u.riser = (s.raiseDiscarded lost).riser) ∧
    (∃ gone freed : List OrderId,
      (∀ id, id ∈ gone ↔ listed id ∧ ∃ o, s.order id = some o ∧ (o.state = .sent ∨ o.state = .cancelPending)) ∧
      (∀ id, id ∈ freed ↔ listed id) ∧
      ∀ p,
        let x := s.pantry p
        let kept := x.replay.filter fun f => !(f.order.any gone.contains)
        let removed : Prop := x.link = .up ∧ kept.length < x.replay.length
        (u.pantry p).cancels = x.cancels.filter (fun id => !gone.contains id) ∧
        (u.pantry p).replay = kept.map (fun f => if f.order.any freed.contains then { f with order := none } else f) ∧
        (removed → (u.pantry p).link = .syncing ∧ (u.pantry p).replayPos = none ∧ (u.pantry p).replayTimer = none) ∧
        (¬ removed → (u.pantry p).link = x.link ∧ (u.pantry p).replayPos = x.replayPos ∧
          (u.pantry p).replayTimer = x.replayTimer) ∧
        (u.pantry p).dispatch = x.dispatch) ∧
    u.rooms = s.rooms ∧ u.clock = s.clock ∧ u.evidence = s.evidence ∧ u.lines = s.lines) ∧
  (∀ (s : State) (i : Nat) r, s.res i = some r →
    let settled := r.orders.foldl State.retireOrder s
    let flying : Prop := ∃ id ∈ r.orders, ∃ o, s.order id = some o ∧ (o.state = .sent ∨ o.state = .cancelPending)
    (r.dirty = false → ¬ flying → s.retire i = settled.freeRecord i ∧ (s.retire i).res i = none ∧
      ∀ id ∈ r.orders, (s.retire i).order id = none) ∧
    (r.dirty = true ∨ flying →
      s.retire i = (settled.unlist i r).setRes i (some { r with day := .past, version := r.version + 1 }) ∧
      (s.retire i).res i = some { r with day := .past, version := r.version + 1 }) ∧
    (∀ j, j ≠ i → (s.retire i).res j = s.res j) ∧
    (r.day = .today → i ∉ ((s.retire i).room r.room).today)) ∧
  (∀ (s : State) (id : OrderId),
    (s.order id = none → s.retireOrder id = s) ∧
    ∀ o, s.order id = some o →
      (o.state = .held → s.retireOrder id = s.modOrder id fun o => { o with state := .cancelled }) ∧
      (o.state = .queued → s.retireOrder id = (s.modPantry o.pantry fun p =>
        { p with dispatch := p.dispatch.filter fun i => decide (i ≠ id) }).modOrder id fun o =>
          { o with state := .cancelled }) ∧
      (o.state = .accepted → s.retireOrder id = s.modOrder id fun o => { o with state := .expired }) ∧
      (o.state ≠ .held → o.state ≠ .queued → o.state ≠ .accepted → s.retireOrder id = s)) ∧
  (∀ (s : State) (room : Nat), room < 48 →
    let u := s.promote room
    u.room room = { s.room room with today := (s.room room).next, next := [] } ∧
    (∀ j, j ≠ room → u.room j = s.room j) ∧
    (∀ i, i ∉ (s.room room).next → u.res i = s.res i) ∧
    ((s.room room).next.Nodup → ∀ i ∈ (s.room room).next, ∀ r, s.res i = some r →
      u.res i = some { r with day := .today, version := r.version + 1 })) ∧
  ∀ (s : State) (old : Nat),
    (s.atRest → Instr.dayBoundary old ∈ s.due → (s.ahead (.dayBoundary old)).any isBoundaryWork = true →
      exec (.dayBoundary old) s = .next s.sent) ∧
    (s.atRest → s.clock.isSet = true → (s.ahead (.dayBoundary old)).any isBoundaryWork = false →
      exec (.dayBoundary old) s = .next (((((((s.takeDue (.dayBoundary old)).bookingBoundary old 288).dispatcherBoundary
        288).rollover).bookingBoundary ((old + 1) % 65536) 0).dispatcherBoundary 0).markAll).sent) ∧
    (∀ r, ((s.rollover).room r).next = []) ∧
    s.rollover.clock = s.clock ∧ s.rollover.evidence = s.evidence ∧ s.rollover.lines = s.lines ∧
    s.rollover.riser.receive = s.riser.receive

/-- The day flush (R20, R41): every reservation and order record freed, every day list and pantry queue empty, UP and
SYNCING links at SYNCING, CLOSING rooms CLOSED with CLOSE_DONE, and DAY_FLUSH raised with the count of the dirty records
lost; clock, evidence, classes and lines stay. That the CLOSE_DONE causes come first, by ascending room, is the model's
choice (log entry 13). -/
def Obligations.DayFlushFreesEveryRecord : Prop :=
  ∀ s : State,
    let t := s.dayFlush
    (∀ i, t.res i = none) ∧ t.orders = [] ∧
    (∀ r, (t.room r).today = [] ∧ (t.room r).next = [] ∧ (t.room r).cls = (s.room r).cls ∧
      (r < 48 → (t.room r).service = (if (s.room r).service = .closing then .closed else (s.room r).service))) ∧
    (∀ p, (t.pantry p).dispatch = [] ∧ (t.pantry p).cancels = [] ∧ (t.pantry p).replay = [] ∧
      (t.pantry p).replayPos = none ∧ (t.pantry p).replayTimer = none ∧
      (t.pantry p).link = (if (s.pantry p).link = .up then .syncing else (s.pantry p).link)) ∧
    (let lost := ((List.range 768).filter fun i => (s.res i).any Reservation.dirty).length
      let closing := (List.range 48).filter fun r => decide ((s.room r).service = .closing)
      let u := (closing.foldl (fun v r => v.raise (72 + r) .closeDone) s).raiseDayFlush lost
      t.latches = u.latches ∧ t.unsent = u.unsent ∧ t.flushCount = u.flushCount ∧ t.discardCount = u.discardCount ∧
        t.riser = u.riser) ∧
    (t.latch 120).isSet = true ∧
    t.clock = s.clock ∧ t.evidence = s.evidence ∧ t.classes = s.classes ∧ t.lines = s.lines ∧ t.floor = s.floor

/-! ## LOADs and READs -/

/-- The LOADs of the Room Map, the Room Class Table and the Room Table (R1 to R5, R184): BAD_TABLE for an entry or contents
out of range and for a foreign or doubled room code, BAD_STATE for a changed code while the room holds a live record, and
otherwise the whole entry replaced, the room's displays marked, and OK with the entry and a clear clamped flag. That a
foreign code is BAD_TABLE even when the entry already holds it is the model's choice (log entry 45). A LOAD of one of the two
tables that the Booking Engine owns waits during a catch-up (R18; log entry 31). -/
def Obligations.LoadsOfRoomTables : Prop :=
  ∀ (s : State) (tag : Tag) (entry : Nat), s.accepts .load tag → s.restart = none →
    let good (c : Instr) (u : State) (table : Nat) : Prop :=
      s.inTurn c → exec c s = .next (u.reply .load tag .ok (.loaded table entry false)).sent
    let bad (c : Instr) (code : Code) : Prop := s.inTurn c → exec c s = .next (s.replies c .load tag code .none)
    (∀ c : Instr, (∃ code, c = .loadRoomMap tag entry code) ∨ (∃ cls, c = .loadRoomTable tag entry cls) →
      s.inTurn c → s.catchUp = true → exec c s = .next { s.taken c .load tag with due := s.holdBack c c }.sent) ∧
    (∀ code, s.catchUp = false → let c : Instr := .loadRoomMap tag entry code
      let t := s.taken c .load tag
      let foreign : Prop :=
        ∃ b, code = some b ∧ ¬ (b.building = s.floor.building ∧ b.floor = s.floor.floor ∧ b.room ≤ 63)
      let doubled : Prop := ∃ b i, code = some b ∧ i < 48 ∧ i ≠ entry ∧ s.roomMap[i]? = some (some b)
      let live : Prop := ∃ i r, i ∈ (s.room entry).today ++ (s.room entry).next ∧ s.res i = some r ∧ r.state.live = true
      (47 < entry ∨ foreign ∨ doubled → bad c .badTable) ∧
      (entry ≤ 47 → ¬ foreign → ¬ doubled →
        (s.roomMap[entry]? = some code → good c t 1) ∧
        (s.roomMap[entry]? ≠ some code → live → bad c .badState) ∧
        (s.roomMap[entry]? ≠ some code → ¬ live →
          good c ({ t with roomMap := updAt s.roomMap entry fun _ => code }.markRoom entry) 1))) ∧
    (∀ fields, let c : Instr := .loadRoomClass tag entry fields
      (7 < entry ∨ roomClassOf fields = none → bad c .badTable) ∧
      (∀ k, entry ≤ 7 → roomClassOf fields = some k → ∃ u : State, good c u 2 ∧
        u = { s.taken c .load tag with classes := updAt s.classes entry fun _ => k, drops := u.drops } ∧
        ∀ d r, (s.drop d).kind = .roomPanel → (s.drop d).room = some r → r < 48 → (s.room r).cls = entry →
          validDrop d = true → u.drop d = { s.drop d with stale := true })) ∧
    (∀ cls, s.catchUp = false → let c : Instr := .loadRoomTable tag entry cls
      let t := s.taken c .load tag
      (47 < entry ∨ 7 < cls → bad c .badTable) ∧
      (entry ≤ 47 → cls ≤ 7 → (s.room entry).cls = cls → good c t 3) ∧
      (entry ≤ 47 → cls ≤ 7 → (s.room entry).cls ≠ cls →
        good c ((t.modRoom entry fun e => { e with cls := cls }).markRoom entry) 3))

/-- The LOADs of the floor record and the Pantry config (R167, R88, R184): the whole record replaced, with the reply under
the new identity; a lead above 24 taken as 24 with the clamped flag; BAD_TABLE out of range or for a drop another pantry
names; BAD_STATE for another bound drop while the link is not DOWN; a DOWN link that gains a present drop in NORMAL mode
goes to SYNCING (R98). The oldest message of the receive buffer keeps its claim through a floor record under which it
needs no reply: held with no free entry before, it is held still (R172, R174). -/
def Obligations.LoadsOfFloorAndPantry : Prop :=
  ∀ (s : State) (tag : Tag) (entry : Nat),
    (∀ rec, let c : Instr := .loadFloorRecord tag entry rec
      s.manages c .load tag →
      let t := s.taken c .load tag
      (entry ≠ 0 ∨ floorRecordOk rec = false → exec c s = .next (s.replies c .load tag .badTable .none)) ∧
      (entry = 0 → floorRecordOk rec = true →
        exec c s = .next (({ t with
          floor := rec
          riser := { t.riser with
            replyHeld := t.riser.replyHeld || (t.headNeedsReply && decide (t.freeEntries = 0)) } }).reply
              .load tag .ok (.loaded 0 0 false)).sent)) ∧
    (∀ fields, let c : Instr := .loadPantryConfig tag entry fields
      s.manages c .load tag →
      let t := s.taken c .load tag
      let badDrop : Prop := ∃ d, fields.drop = some d ∧
        (validDrop d = false ∨ ∃ q, q < 8 ∧ q ≠ entry ∧ (s.pantry q).drop = some d)
      let u := t.modPantry entry fun x =>
        { x with drop := fields.drop, lead := min 24 fields.lead, timeoutCode := fields.timeoutCode }
      let done (v : State) : Prop :=
        exec c s = .next (v.reply .load tag .ok (.loaded 6 entry (decide (24 < fields.lead)))).sent
      (7 < entry ∨ 3 < fields.timeoutCode ∨ badDrop → exec c s = .next (s.replies c .load tag .badTable .none)) ∧
      (entry ≤ 7 → fields.timeoutCode ≤ 3 → ¬ badDrop → (s.pantry entry).drop ≠ fields.drop → (s.pantry entry).link ≠ .down →
        exec c s = .next (s.replies c .load tag .badState .none)) ∧
      (entry ≤ 7 → fields.timeoutCode ≤ 3 → ¬ badDrop → (s.pantry entry).drop = fields.drop ∨ (s.pantry entry).link = .down →
        (u.servingDrop entry = none → done u) ∧
        (∀ d, u.servingDrop entry = some d → (s.drop d).present = true → (s.drop d).mode = .normal →
          done (u.linkRise entry)) ∧
        (∀ d, u.servingDrop entry = some d → (s.drop d).present = false ∨ (s.drop d).mode ≠ .normal → done u)))

/-- The LOADs of the Drop Table and the Line config (R121, R122, R144, R145, R184): BAD_TABLE out of range, for a third
panel or second sensor of a room and for a doubled pantry; BAD_STATE for a changed drop that is not ISOLATED; present
values change no field; a taken entry is replaced whole, and a parked walk of the line resumes. An entry that names
address 0 in its schedule sets the clamped flag. -/
def Obligations.LoadsOfDropAndLine : Prop :=
  ∀ (s : State) (tag : Tag),
    (∀ (drop : DropCode) fields, let c : Instr := .loadDropTable tag drop fields
      s.manages c .load tag →
      let t := s.taken c .load tag
      let d := s.drop drop
      let others (f : Drop → Bool) : Nat := (allDrops.filter fun x => !(x = drop) && f (s.drop x)).length
      let place := drop.line * 16 + drop.addr
      (validDrop drop = false ∨ dropKindOf fields.kind = none → exec c s = .next (s.replies c .load tag .badTable .none)) ∧
      (∀ k, validDrop drop = true → dropKindOf fields.kind = some k →
        let roomBad : Prop := ∃ r, fields.room = some r ∧ ((k ≠ .roomPanel ∧ k ≠ .roomSensor) ∨ 47 < r ∨
          (if k = .roomPanel then 2 else 1) ≤ others fun x => x.kind = k && x.room = some r)
        let pantryBad : Prop := (k = .pantry ∧ fields.pantry = none) ∨ ∃ p, fields.pantry = some p ∧
          (k ≠ .pantry ∨ 7 < p ∨ 1 ≤ others fun x => x.kind = .pantry && x.pantry = some p)
        let same : Prop := d.kind = k ∧ d.room = fields.room ∧ d.pantry = fields.pantry
        (roomBad ∨ pantryBad → exec c s = .next (s.replies c .load tag .badTable .none)) ∧
        (¬ roomBad → ¬ pantryBad → same →
          exec c s = .next ((t.resumeWalk drop.line).reply .load tag .ok (.loaded 4 place false)).sent) ∧
        (¬ roomBad → ¬ pantryBad → ¬ same → d.mode ≠ .isolated →
          exec c s = .next (s.replies c .load tag .badState .none)) ∧
        (¬ roomBad → ¬ pantryBad → ¬ same → d.mode = .isolated → ∃ u : State,
          exec c s = .next (u.reply .load tag .ok (.loaded 4 place false)).sent ∧
          (u.drop drop).kind = k ∧ (u.drop drop).room = fields.room ∧ (u.drop drop).pantry = fields.pantry ∧
          (u.drop drop).mode = d.mode ∧ (u.drop drop).present = d.present ∧ (u.drop drop).reported = d.reported ∧
          (∀ x, x ≠ drop → u.drop x = s.drop x ∨ u.drop x = { s.drop x with stale := true }) ∧
          (k ≠ .unused → d.reported ≠ none → d.reported ≠ some k → (u.latch (dropIndex drop)).isSet = true) ∧
          (u.line drop.line).walk = .walking))) ∧
    (∀ (line : Nat) fields, let c : Instr := .loadLineConfig tag line fields
      s.manages c .load tag →
      let t := s.taken c .load tag
      fields.phases.length = 32 →
      (3 < line ∨ 3 < fields.timeoutCode ∨ (∃ n ∈ fields.phases, phaseOf n = none) →
        exec c s = .next (s.replies c .load tag .badTable .none)) ∧
      (line ≤ 3 → fields.timeoutCode ≤ 3 → (∀ n ∈ fields.phases, phaseOf n ≠ none) →
        let u := t.modLine line fun x => { x with
          timeoutCode := fields.timeoutCode, powerAtStart := fields.powerAtStart
          schedule := Vector.ofFn fun i => ((fields.phases[i.val]?).bind phaseOf).getD .empty
          pointer := if x.turn.isSome then x.pointer else 0, reload := x.turn.isSome }
        exec c s = .next ((u.resumeWalk line).reply .load tag .ok (.loaded 5 line (fields.phases.contains 32))).sent ∧
        (u.resumeWalk line).drops = s.drops ∧ ((u.resumeWalk line).line line).walk = .walking))

/-- The READs of records that hold no counter (R185, R186, R36, R72, R91, R202): OK with the record as it stands when the
READ is taken, read-and-clear or not, and no effect but the reply; BAD_MESSAGE past the table's range, BAD_STATE for a free
reservation record, NOT_FOUND for an order that the pool does not hold. A READ of a reservation, which gives its day list,
waits while a day boundary is raised, so that it sees no old list with the new day's clock (R15; log entry 31). -/
def Obligations.ReadsReturnRecordsAsTheyStand : Prop :=
  ∀ (s : State) (tag : Tag) (clear : Bool),
    let gives (c : Instr) (b : Body) : Prop := s.manages c .read tag → exec c s = .next (s.replies c .read tag .ok b)
    let fails (c : Instr) (code : Code) : Prop :=
      s.manages c .read tag → exec c s = .next (s.replies c .read tag code .none)
    gives (.readFloorRecord tag clear) (.floorRecord s.floor) ∧
    (∀ n code, s.roomMap[n]? = some code → gives (.readRoomMap tag clear n) (.roomMap code)) ∧
    (∀ n, 48 ≤ n → fails (.readRoomMap tag clear n) .badMessage) ∧
    (∀ n k, s.classes[n]? = some k → gives (.readRoomClass tag clear n) (.roomClass k)) ∧
    (∀ n, 8 ≤ n → fails (.readRoomClass tag clear n) .badMessage) ∧
    (∀ n, n < 48 → gives (.readRoomTable tag clear n)
      (.roomTable (s.room n).cls (s.boundPanels n) (s.boundSensor n) (s.room n).service)) ∧
    (∀ n, 48 ≤ n → fails (.readRoomTable tag clear n) .badMessage) ∧
    (∀ n, n < 8 → gives (.readPantryConfig tag clear n)
      (.pantryConfig (s.pantry n).drop (s.pantry n).lead (s.pantry n).timeoutCode)) ∧
    (∀ n, 8 ≤ n → fails (.readPantryConfig tag clear n) .badMessage) ∧
    (∀ i, let c : Instr := .readReservation tag clear i
      s.dayRaised = true → s.manages c .read tag → exec c s = .next { s.taken c .read tag with due := s.holdBack c c }.sent) ∧
    (s.dayRaised = true ↔ ∃ day, Instr.dayBoundary day ∈ s.due) ∧
    (∀ i r, s.dayRaised = false → i < 768 → s.res i = some r → gives (.readReservation tag clear i) (.reservation i r)) ∧
    (∀ i, s.dayRaised = false → i < 768 → s.res i = none → fails (.readReservation tag clear i) .badState) ∧
    (∀ i, s.dayRaised = false → 768 ≤ i → fails (.readReservation tag clear i) .badMessage) ∧
    (∀ id o, s.order id = some o → gives (.readOrder tag clear id) (.order o)) ∧
    (∀ id, s.order id = none → fails (.readOrder tag clear id) .notFound) ∧
    (∀ n, n < 48 → gives (.readEvidence tag clear n) (.evidence (s.ev n))) ∧
    (∀ n, 48 ≤ n → fails (.readEvidence tag clear n) .badMessage) ∧
    gives (.readFloorClock tag clear) (.floorClock s.clock
      (if s.clock.isSet then some (s.clock.minute / 5) else none) s.clockBusy) ∧
    (∀ i, i < 120 → gives (.readEventLatch tag clear i) (.eventLatch (s.latch i) none)) ∧
    gives (.readEventLatch tag clear 120) (.eventLatch (s.latch 120) (some (s.flushCount, s.discardCount))) ∧
    (∀ i, 121 ≤ i → fails (.readEventLatch tag clear i) .badMessage) ∧
    gives (.readEventSummary tag clear)
      (.eventSummary ((List.range 121).filter fun i => (s.latch i).isSet) s.unsent) ∧
    gives (.readBootStatus tag clear) (.bootStatus s.boot)

/-- The READs of records with counters (R166, R143, R120, R182): OK with the record as it stands, the counters as they were;
a plain READ changes nothing, a read-and-clear sets the record's counters to 0 in the same change. The display of a room
panel is composed as the READ is taken, and such a READ waits while a day boundary is raised, so that no old list is shown
with the new day's clock (R15; log entry 31). The riser port record gives, beside the floor record, the online state, the
timer's remaining seconds (none while it is stopped), the four queues' lengths, the reservations of the local transmit queue
with the READ's own among them, whether the oldest message received is held and whether an event claim waits, the grant
flag, the arbiter's share and count, and the seven counters of R181. -/
def Obligations.ReadAndClearZeroesCounters : Prop :=
  ∀ (s : State) (tag : Tag) (clear : Bool),
    let t (c : Instr) : State := s.taken c .read tag
    (∀ drop, let c : Instr := .readDrop tag clear drop
      s.manages c .read tag →
      let body : Body := .drop drop (s.drop drop)
        (if (s.drop drop).kind = .roomPanel then some (s.display (s.drop drop).room) else none)
      let waits : Prop := (s.drop drop).kind = .roomPanel ∧ s.dayRaised = true
      (validDrop drop = false → exec c s = .next (s.replies c .read tag .badMessage .none)) ∧
      (validDrop drop = true → waits → exec c s = .next { t c with due := s.holdBack c c }.sent) ∧
      (validDrop drop = true → ¬ waits → exec c s = .next
        (State.sent (if clear then
          ((t c).reply .read tag .ok body).modDrop drop fun d => { d with droppedItems := 0, ignoredFrames := 0 }
         else (t c).reply .read tag .ok body)))) ∧
    (∀ line, let c : Instr := .readLine tag clear line
      s.manages c .read tag →
      (4 ≤ line → exec c s = .next (s.replies c .read tag .badMessage .none)) ∧
      (line < 4 → exec c s = .next
        (State.sent (if clear then
          ((t c).reply .read tag .ok (.line (s.line line))).modLine line fun x => { x with errors := 0, timeouts := 0 }
         else (t c).reply .read tag .ok (.line (s.line line)))))) ∧
    (∀ pantry, let c : Instr := .readPantryLink tag clear pantry
      s.manages c .read tag →
      (8 ≤ pantry → exec c s = .next (s.replies c .read tag .badMessage .none)) ∧
      (pantry < 8 → exec c s = .next
        (State.sent (if clear then
          ((t c).reply .read tag .ok (.pantryLink (s.pantry pantry))).modPantry pantry fun x =>
            { x with staleAcks := 0, creditRange := 0 }
         else (t c).reply .read tag .ok (.pantryLink (s.pantry pantry)))))) ∧
    (∀ c : Instr, c = .readRiserPort tag clear → s.manages c .read tag →
      let r := s.riser
      let body : Body := .riserPort s.floor
        { online := r.online, timer := r.offlineTimer, receive := r.receive.length, onwardQueue := r.onwardQueue.length
          upwardQueue := r.upwardQueue.length, localQueue := r.localQueue.length
          reservations := (t c).riser.reservations.length
          replyHeld := r.replyHeld || (s.headNeedsReply && decide ((t c).freeEntries = 0))
          eventClaim := decide (s.unsent ≠ []), grantEvent := r.grantEvent, shareOnward := r.shareOnward
          shareCount := r.shareCount
          counters := [r.uplinkForeign, r.onwardForeign, r.malformed, r.receiveDrops, r.onwardDrops, r.upwardDrops,
                       r.upframeDrops] }
      exec c s = .next
        (State.sent (if clear then
          ((t c).reply .read tag .ok body).modRiser fun r =>
            { r with uplinkForeign := 0, onwardForeign := 0, malformed := 0, receiveDrops := 0, onwardDrops := 0
                     upwardDrops := 0, upframeDrops := 0 }
         else (t c).reply .read tag .ok body)))

/-- LIST_DIRTY (R34): up to 16 dirty records at or above the cursor, in ascending index, each with its fields as they
stand; the next cursor is the last listed index plus 1 when a dirty record lies beyond 16 listed ones, and END when every
dirty record at or above the cursor is listed. A cursor above 767 is BAD_MESSAGE. The list gives each record's day list, so
a LIST_DIRTY waits while a day boundary is raised (R15; log entry 31); a cursor that two bytes do not hold is refused before
that (log entry 42). -/
def Obligations.DirtyListWalksTheStore : Prop :=
  ∀ (s : State) (tag : Tag) (cursor : Nat),
    let c : Instr := .listDirty tag cursor
    s.manages c .listDirty tag →
    let dirty (i : Nat) : Prop := ∃ r, s.res i = some r ∧ r.dirty = true
    (65535 < cursor ∨ (767 < cursor ∧ s.dayRaised = false) →
      exec c s = .next (s.replies c .listDirty tag .badMessage .none)) ∧
    (cursor ≤ 65535 → s.dayRaised = true →
      exec c s = .next { s.taken c .listDirty tag with due := s.holdBack c c }.sent) ∧
    (cursor ≤ 767 → s.dayRaised = false → ∃ entries next,
      exec c s = .next (s.replies c .listDirty tag .ok (.dirtyList entries next)) ∧
      entries.length ≤ 16 ∧ entries.Pairwise (fun a b => a.index < b.index) ∧
      (∀ e ∈ entries, cursor ≤ e.index ∧ ∃ r, s.res e.index = some r ∧ r.dirty = true ∧
        e = { index := e.index, version := r.version, room := r.room, day := r.day, state := r.state }) ∧
      (∀ n, next = some n → entries.length = 16 ∧ (∃ e ∈ entries, n = e.index + 1) ∧
        (∀ e ∈ entries, e.index < n) ∧ (∃ i, n ≤ i ∧ dirty i) ∧
        ∀ i, cursor ≤ i → i < n → dirty i → ∃ e ∈ entries, e.index = i) ∧
      (next = none → ∀ i, cursor ≤ i → dirty i → ∃ e ∈ entries, e.index = i))

/-- MARK_CLEAN (R35): the dirty flag of a dirty record is cleared when the version given is the record's, which stays as it
is; another version is answered STALE_VERSION with the record's, and a free or clean record BAD_STATE. -/
def Obligations.MarkCleanNeedsTheVersion : Prop :=
  ∀ (s : State) (tag : Tag) (index : Nat) (version : Byte),
    let c : Instr := .markClean tag index version
    s.manages c .markClean tag →
    (767 < index → exec c s = .next (s.replies c .markClean tag .badMessage .none)) ∧
    (index ≤ 767 → s.res index = none → exec c s = .next (s.replies c .markClean tag .badState .none)) ∧
    ∀ r, index ≤ 767 → s.res index = some r →
      (r.dirty = false → exec c s = .next (s.replies c .markClean tag .badState .none)) ∧
      (r.dirty = true → r.version ≠ version →
        exec c s = .next (s.replies c .markClean tag .staleVersion (.version r.version))) ∧
      (r.dirty = true → r.version = version →
        exec c s = .next
          (((s.taken c .markClean tag).setRes index (some { r with dirty := false })).reply .markClean tag .ok .none).sent)

/-! ## Panel lines -/

/-- The states of a line. LINE_POWER on and off and LINE_BREAK by line state (R125, R126, R128); the break after the settling
time, the quiet part after the low part, and RUNNING with its walk set up and its cause raised (R127); and a power fault,
which leaves FAULT with the feed off from SETTLING, BREAK or RUNNING (R129). That the PRESENCE causes of a line that leaves
RUNNING come by ascending address and before its POWER_FAULT is the model's choice (log entry 13). -/
def Obligations.LineStatesAndPower : Prop :=
  (∀ (s : State) (tag : Tag) (line : Nat), s.accepts .control tag → s.restart = none →
      let on : Instr := .linePowerOn tag line
      let off : Instr := .linePowerOff tag line
      let brk : Instr := .lineBreak tag line
      let does (c : Instr) (u : State) : Prop := s.inTurn c → exec c s = .next u
      let moved (u : State) (st : LineState) (feed low : Bool) : State :=
        (u.modLine line fun x => { x with state := st, feed := feed, breakLow := low }).reply .control tag .ok .none
      (3 < line → ∀ c, c = on ∨ c = off ∨ c = brk → does c (s.replies c .control tag .badMessage .none)) ∧
      (line ≤ 3 →
        ((s.line line).state = .off ∨ (s.line line).state = .fault →
          does on (moved (s.taken on .control tag) .settling true false).sent ∧
          does brk (s.replies brk .control tag .badState .none)) ∧
        ((s.line line).state = .settling ∨ (s.line line).state = .breaking ∨ (s.line line).state = .running →
          does on (s.replies on .control tag .ok .none)) ∧
        ((s.line line).state = .off → does off (s.replies off .control tag .ok .none)) ∧
        ((s.line line).state ≠ .off → (s.line line).state ≠ .running →
          does off (moved (s.taken off .control tag) .off false false).sent) ∧
        ((s.line line).state = .running →
          does off (moved ((s.taken off .control tag).leaveRunning line) .off false false).sent ∧
          does brk (moved ((s.taken brk .control tag).leaveRunning line) .breaking true true).sent) ∧
        ((s.line line).state = .settling ∨ (s.line line).state = .breaking →
          does brk (s.replies brk .control tag .ok .none)))) ∧
  ∀ (s : State) (line : Nat), s.atRest → line ≤ 3 →
    ((s.line line).state = .settling →
      exec (.settlingEnd line) s = .next ((s.takeDue (.settlingEnd line)).modLine line fun x =>
        { x with state := .breaking, feed := true, breakLow := true }).sent) ∧
    ((s.line line).state = .breaking → (s.line line).breakLow = true →
      exec (.breakLowEnd line) s = .next ((s.takeDue (.breakLowEnd line)).modLine line fun x =>
        { x with breakLow := false }).sent) ∧
    ((s.line line).state = .breaking → (s.line line).breakLow = false →
      exec (.breakQuietEnd line) s = .next ((((s.takeDue (.breakQuietEnd line)).modLine line fun x =>
        { x with state := .running, pointer := 0, walk := .walking, cursor := 0, turn := none, reload := false
                 incoming := none }).raise (60 + line) .running).handOnce (.walkPhase line)).sent) ∧
    ((s.line line).state = .settling ∨ (s.line line).state = .breaking →
      exec (.powerFault line) s = .next (((s.takeDue (.powerFault line)).modLine line fun x =>
        { x with state := .fault, feed := false, breakLow := false }).raise (60 + line) .powerFault).sent) ∧
    ((s.line line).state = .running →
      exec (.powerFault line) s = .next ((((s.takeDue (.powerFault line)).leaveRunning line).modLine line fun x =>
        { x with state := .fault, feed := false, breakLow := false }).raise (60 + line) .powerFault).sent) ∧
    ((s.line line).state = .off ∨ (s.line line).state = .fault →
      exec (.powerFault line) s = .next (s.takeDue (.powerFault line)).sent)

/-- A line that leaves RUNNING (R130, R147, R158): its turn is gone with no miss, error or timeout counted, and a frame in
reception with it (R124); every drop of
the line is not present with miss count 0, its mode, kind and queue kept, its in-flight item dealt with, and PRESENCE
raised for each that was present; drops of other lines are as they were. -/
def Obligations.LeavingRunningLosesTheDrops : Prop :=
  ∀ (s : State) (l : Nat), l ≤ 3 →
    let t := s.leaveRunning l
    t.line l = { s.line l with turn := none, reload := false, incoming := none, walk := .walking, pointer := 0 } ∧
    (∀ j, j ≠ l → t.line j = s.line j) ∧
    (∀ a, 1 ≤ a → a ≤ 15 →
      let c : DropCode := { line := l, addr := a }
      let d := s.drop c
      t.drop c = { d with
        present := false, miss := 0, inFlight := .none
        stale := if d.inFlight = .show then true else d.stale
        droppedItems := if d.inFlight = .content ∨ d.inFlight = .service then min (d.droppedItems + 1) 65535
                        else d.droppedItems } ∧
      (d.present = true → (t.latch (l * 15 + a - 1)).isSet = true) ∧
      (∀ p, d.present = true → s.servedPantry c = some p → (t.pantry p).link = .down)) ∧
    (∀ c : DropCode, c.line ≠ l → t.drop c = s.drop c) ∧
    t.pool = s.pool ∧ t.orders = s.orders ∧ t.rooms = s.rooms ∧ t.clock = s.clock ∧ t.evidence = s.evidence

/-! ## Drop modes, rooms and pantries -/

/-- DROP_MODE (R149, R150): BAD_MESSAGE for no drop or no mode; BAD_STATE, NOT_PRESENT and KIND_MISMATCH in that order for
NORMAL and SHADOW; the present mode changes nothing but a parked walk; and a new mode is taken, with the queue emptied and
the stale flag cleared by ISOLATED, the turn of the drop abandoned, and a parked walk resumed. The in-flight item of an
abandoned turn is lost (R158): a SHOW sets the stale flag again, under ISOLATED too, and a CONTENT or SERVICE item is counted,
after the mode's own effects (log entry 24). Of a drop that serves a pantry, ISOLATED takes the link DOWN and fails the
pantry's SENT, QUEUED and CANCEL_PENDING orders, each with its order outcome notice, handed over in the order in which the
orders were created (log entry 12); the dispatch queue, the cancel queue and the replay list are emptied and the replay ends
(R100). EXCLUDED and SHADOW take the link DOWN with all of these kept, and NORMAL takes a DOWN link to SYNCING (R98, R150). -/
def Obligations.DropModeIsCheckedAndTaken : Prop :=
  ∀ (s : State) (tag : Tag) (drop : DropCode) (mode : Nat),
    let c : Instr := .dropMode tag drop mode
    s.manages c .control tag →
    let t := s.taken c .control tag
    let d := s.drop drop
    let refused (code : Code) : Prop := exec c s = .next (s.replies c .control tag code .none)
    (validDrop drop = false ∨ dropModeOf mode = none → refused .badMessage) ∧
    ∀ m, validDrop drop = true → dropModeOf mode = some m →
      let high : Prop := m = .normal ∨ m = .shadow
      let passed : Prop := high →
        d.kind ≠ .unused ∧ (s.line drop.line).state = .running ∧ d.present = true ∧ d.reported = some d.kind
      (high → d.kind = .unused → refused .badState) ∧
      (high → d.kind ≠ .unused → (s.line drop.line).state ≠ .running ∨ d.present = false → refused .notPresent) ∧
      (high → d.kind ≠ .unused → (s.line drop.line).state = .running → d.present = true → d.reported ≠ some d.kind →
        refused .kindMismatch) ∧
      (passed → d.mode = m →
        exec c s = .next ((t.resumeWalk drop.line).reply .control tag .ok .none).sent) ∧
      (passed → d.mode ≠ m →
        let u := t.changeMode drop m
        exec c s = .next (u.reply .control tag .ok .none).sent ∧
        (u.drop drop).mode = m ∧ (u.drop drop).kind = d.kind ∧ (u.drop drop).room = d.room ∧
        (u.drop drop).present = d.present ∧ (u.drop drop).miss = d.miss ∧
        (m = .isolated → (u.drop drop).answer = none ∧ (u.drop drop).fifo = []) ∧
        (let inTurn : Prop := ∃ x, s.turnOf drop.line = some x ∧ x.addr = drop.addr
         let base := if m = .isolated then min (d.droppedItems + d.fifo.length) 65535 else d.droppedItems
         let lostShow : Prop := inTurn ∧ d.inFlight = .show
         let lostItem : Prop := inTurn ∧ (d.inFlight = .content ∨ d.inFlight = .service)
         (inTurn → (u.drop drop).inFlight = .none) ∧ (¬ inTurn → (u.drop drop).inFlight = d.inFlight) ∧
         (lostItem → (u.drop drop).droppedItems = min (base + 1) 65535) ∧
         (¬ lostItem → (u.drop drop).droppedItems = base) ∧
         (lostShow → (u.drop drop).stale = true) ∧
         (¬ lostShow → (m = .isolated → (u.drop drop).stale = false) ∧ (m = .excluded → (u.drop drop).stale = d.stale)) ∧
         (high → d.kind = .roomPanel → (u.drop drop).stale = true)) ∧
        (m ≠ .isolated → (u.drop drop).answer = d.answer ∧ (u.drop drop).fifo = d.fifo) ∧
        (∀ x, x ≠ drop → u.drop x = s.drop x) ∧
        (∀ x, s.turnOf drop.line = some x → x.addr = drop.addr →
          (u.line drop.line).turn = some { x with abandoned := true }) ∧
        (s.servedPantry drop = none → u.pantries = s.pantries ∧ u.orders = s.orders) ∧
        (∀ p, s.servedPantry drop = some p →
          let x := s.pantry p
          let fails (o : Order) : Prop :=
            o.pantry = p ∧ (o.state = .sent ∨ o.state = .queued ∨ o.state = .cancelPending)
          (∀ q, q ≠ p → u.pantry q = s.pantry q) ∧
          (m = .isolated →
            u.pantry p = { x with
              link := .down, dispatch := [], cancels := [], replay := [], replayPos := none, replayTimer := none } ∧
            (∀ id o, s.order id = some o → fails o →
              u.order id = some { o with state := .failed, cancelPending := false, seq := none } ∧
              Instr.orderOutcomeNotice o.res id ∈ u.due) ∧
            (∀ id o, s.order id = some o → o.pantry = p → ¬ fails o →
              u.order id = some { o with cancelPending := false, seq := none }) ∧
            (∀ id o, s.order id = some o → o.pantry ≠ p → u.order id = some o) ∧
            (t.due ++ (s.orders.filter fun o => decide (fails o)).map fun o => Instr.orderOutcomeNotice o.res o.id) <+:
              u.due) ∧
          (m = .excluded ∨ m = .shadow →
            u.orders = s.orders ∧ (x.link = .down → u.pantry p = x) ∧
            (x.link ≠ .down → u.pantry p = { x with link := .down, replayPos := none, replayTimer := none })) ∧
          (m = .normal →
            u.orders = s.orders ∧ (x.link ≠ .down → u.pantry p = x) ∧
            (x.link = .down → u.pantry p = { x with link := .syncing, replayPos := none, replayTimer := none }))) ∧
        (u.line drop.line).walk = .walking)

/-- ROOM_CLOSE and ROOM_OPEN (R7 to R9): an OPEN room with no current reservation goes to CLOSED with CLOSE_DONE, with a DUE
one it is cancelled first, with one IN_USE the room goes to CLOSING; a room not OPEN is left as it is; ROOM_OPEN opens from
either state with no cause; each is answered OK, and an index above 47 BAD_MESSAGE. That closed at takes slot 0 while the
clock is unset is the model's choice (log entry 26). During a catch-up either waits, and its index is checked as it is then
taken (R18; log entry 31). -/
def Obligations.RoomServiceControls : Prop :=
  ∀ (s : State) (tag : Tag) (room : Nat), s.accepts .control tag → s.restart = none →
    let close : Instr := .roomClose tag room
    let openIt : Instr := .roomOpen tag room
    let does (c : Instr) (u : State) : Prop := s.inTurn c → exec c s = .next u
    let t := s.taken close .control tag
    let set (u : State) (x : Service) : State := (u.modRoom room fun e => { e with service := x }).markRoom room
    (47 < room → s.catchUp = false → ∀ c, c = close ∨ c = openIt →
      does c (s.replies c .control tag .badMessage .none)) ∧
    (s.catchUp = true → ∀ c, c = close ∨ c = openIt →
      does c { s.taken c .control tag with due := s.holdBack c c }.sent) ∧
    (room ≤ 47 → s.catchUp = false →
      ((s.room room).service ≠ .opened → does close (s.replies close .control tag .ok .none)) ∧
      ((s.room room).service = .opened → s.current room = none →
        does close (((set t .closed).raise (72 + room) .closeDone).reply .control tag .ok .none).sent) ∧
      (∀ i r, (s.room room).service = .opened → s.current room = some (i, r) → r.state = .due →
        does close (((set (t.finish i .cancelled .roomClosed
          { day := s.clock.day, slot := s.curSlot.getD 0 } true none) .closed).raise (72 + room) .closeDone).reply
            .control tag .ok .none).sent) ∧
      (∀ i r, (s.room room).service = .opened → s.current room = some (i, r) → r.state = .inUse →
        does close ((set t .closing).reply .control tag .ok .none).sent) ∧
      ((s.room room).service = .opened → does openIt (s.replies openIt .control tag .ok .none)) ∧
      ((s.room room).service ≠ .opened →
        does openIt ((set (s.taken openIt .control tag) .opened).reply .control tag .ok .none).sent))

/-- PANTRY_RESYNC by link state (R100), and the expiry of a replay timer (R114, R115): the replay starts again from the
oldest frame with the timer restarted, and the fourth without progress faults the link, failing every SENT, QUEUED and
CANCEL_PENDING order of the pantry and emptying its queues. The timer keeps the period it was started with, whatever code is
loaded since (R89), and one whose second a TIME message starts anew (R12) expires with as many counted seconds more left. No
expiry falls for a start that progress has replaced: one taken with more than that left, with the whole period left and no
TIME message taken since, or with the timer stopped has no effect. That a timer of a longer period with one second left may
expire, and that each TIME message counts as one second, are the model's choice (log entry 49). -/
def Obligations.PantryLinkResyncAndFault : Prop :=
  ∀ (s : State) (pantry : Nat),
    (∀ tag,
      let c : Instr := .pantryResync tag pantry
      s.manages c .control tag →
      (7 < pantry → exec c s = .next (s.replies c .control tag .badMessage .none)) ∧
      (pantry ≤ 7 →
        ((s.pantry pantry).link = .down → exec c s = .next (s.replies c .control tag .notPresent .none)) ∧
        ((s.pantry pantry).link = .syncing → exec c s = .next (s.replies c .control tag .ok .none)) ∧
        ((s.pantry pantry).link = .up ∨ (s.pantry pantry).link = .faulted →
          exec c s = .next (((s.taken c .control tag).modPantry pantry fun x =>
            { x with link := .syncing, replayPos := none, replayTimer := none }).reply .control tag .ok .none).sent))) ∧
    (s.atRest → pantry ≤ 7 → (∀ timer, (s.pantry pantry).replayTimer = some timer →
        1000 * (1 + timer.cuts) < timer.left ∨ (timer.period ≤ timer.left ∧ timer.cuts = 0)) →
      exec (.replayTimerExpiry pantry) s = .next (s.takeDue (.replayTimerExpiry pantry)).sent) ∧
    (∀ timer, s.atRest → pantry ≤ 7 → (s.pantry pantry).replayTimer = some timer →
        timer.left ≤ 1000 * (1 + timer.cuts) → timer.left < timer.period ∨ 0 < timer.cuts →
      let x := s.pantry pantry
      (x.replayCount < 3 → x.replay ≠ [] → ∃ u : State,
        exec (.replayTimerExpiry pantry) s = .next u.sent ∧
        u.pantry pantry = { x with
          replayCount := x.replayCount + 1, replayPos := some 0
          replayTimer := some
            { left := 1000 * 2 ^ x.timeoutCode, period := 1000 * 2 ^ x.timeoutCode, cuts := 0 } } ∧
        (∀ q, q ≠ pantry → u.pantry q = s.pantry q) ∧ u.orders = s.orders ∧ u.pool = s.pool ∧ u.latches = s.latches) ∧
      (3 ≤ x.replayCount → ∃ u : State,
        exec (.replayTimerExpiry pantry) s = .next u.sent ∧
        (u.pantry pantry).link = .faulted ∧ (u.pantry pantry).replayCount = 4 ∧ (u.pantry pantry).replay = [] ∧
        (u.pantry pantry).dispatch = [] ∧ (u.pantry pantry).cancels = [] ∧ (u.pantry pantry).replayTimer = none ∧
        (u.pantry pantry).replayPos = none ∧ (u.pantry pantry).nextSeq = x.nextSeq ∧
        (∀ q, q ≠ pantry → u.pantry q = s.pantry q) ∧
        (∀ id o, s.order id = some o → o.pantry = pantry → o.state = .sent ∨ o.state = .queued ∨ o.state = .cancelPending →
          u.order id = some { o with state := .failed, cancelPending := false, seq := none } ∧
          Instr.orderOutcomeNotice o.res id ∈ u.due) ∧
        (∀ id o, s.order id = some o → o.pantry ≠ pantry → u.order id = some o) ∧
        (u.latch (64 + pantry)).isSet = true ∧ u.pool = s.pool ∧ u.clock = s.clock))

/-! ## Events -/

/-- A cause raised on a latch (R193, R194) and a CLEAR of it (R195). The floor latch's flush count and discard count: each
goes up by the records lost as its cause is raised, goes with an EVENT that carries the cause, and is 0 from then on. That
a reissued EVENT goes before the CLEAR's own reply is the model's choice (log entry 47). -/
def Obligations.LatchesRaiseAndClear : Prop :=
  (∀ (s : State) (n : Nat),
    (s.raiseDayFlush n = { s with flushCount := min (s.flushCount + n) 65535 }.raise 120 .dayFlush) ∧
    (s.raiseDiscarded 0 = s) ∧
    (1 ≤ n → s.raiseDiscarded n = { s with discardCount := min (s.discardCount + n) 65535 }.raise 120 .dirtyDiscarded) ∧
    ((s.latch 120).isSet = true →
      (s.raiseDayFlush n).flushCount = min (s.flushCount + n) 65535 ∧ (s.raiseDayFlush n).riser = s.riser) ∧
    ((s.latch 120).isSet = false → 0 < s.freeEntries →
      (s.raiseDayFlush n).riser.localQueue = s.riser.localQueue ++
        [.event s.floor.building s.floor.floor 120 32 1 (some (min (s.flushCount + n) 65535)) none] ∧
      (s.raiseDayFlush n).flushCount = 0 ∧ (s.raiseDayFlush n).discardCount = s.discardCount) ∧
    ((s.latch 120).isSet = false → 0 < s.freeEntries → 1 ≤ n →
      (s.raiseDiscarded n).riser.localQueue = s.riser.localQueue ++
        [.event s.floor.building s.floor.floor 120 64 1 none (some (min (s.discardCount + n) 65535))] ∧
      (s.raiseDiscarded n).discardCount = 0 ∧ (s.raiseDiscarded n).flushCount = s.flushCount) ∧
    ((s.latch 120).isSet = false → s.freeEntries = 0 →
      (s.raiseDayFlush n).flushCount = min (s.flushCount + n) 65535 ∧
      (s.raiseDayFlush n).unsent = s.unsent ++ [120])) ∧
  (∀ (s : State) (i : Nat),
    let l := s.latch i
    let flush : Prop := i = 120 ∧ l.causes &&& 32 ≠ 0
    let discard : Prop := i = 120 ∧ l.causes &&& 64 ≠ 0
    (0 < s.freeEntries → ∃ f d, s.placeEvent i = { s with
        riser := { s.riser with localQueue := s.riser.localQueue ++
          [.event s.floor.building s.floor.floor i l.causes l.raiseCount f d] }
        flushCount := if f.isSome then 0 else s.flushCount
        discardCount := if d.isSome then 0 else s.discardCount } ∧
      (flush → f = some s.flushCount) ∧ (¬ flush → f = none) ∧
      (discard → d = some s.discardCount) ∧ (¬ discard → d = none)) ∧
    (s.freeEntries = 0 → s.placeEvent i = { s.modLatch i fun l => { l with unsent := true } with
      unsent := s.unsent ++ [i] })) ∧
  ∀ (s : State) (i : Nat), i ≤ 120 →
    (∀ cause, (s.latch i).isSet = true → s.raise i cause = s.modLatch i fun l =>
      { l with pendingCount := min (l.pendingCount + 1) 15, pendingCauses := l.pendingCauses ||| cause.bit }) ∧
    (∀ cause, (s.latch i).isSet = false →
      (s.raise i cause).latch i = { s.latch i with
        isSet := true, causes := cause.bit, pendingCount := 0, pendingCauses := 0, raiseCount := 1
        unsent := if s.freeEntries = 0 then true else (s.latch i).unsent } ∧
      (s.freeEntries = 0 → (s.raise i cause).unsent = s.unsent ++ [i] ∧ (s.raise i cause).riser = s.riser) ∧
      (0 < s.freeEntries → i ≠ 120 →
        (s.raise i cause).riser = { s.riser with localQueue := s.riser.localQueue ++
          [.event s.floor.building s.floor.floor i cause.bit 1 none none] } ∧ (s.raise i cause).unsent = s.unsent)) ∧
    (∀ tag,
      let c : Instr := .clear tag i
      s.manages c .clear tag →
      let t := s.taken c .clear tag
      let l := s.latch i
      (l.isSet = false → exec c s = .next (s.replies c .clear tag .ok (.cleared false l.causes))) ∧
      (l.isSet = true → l.unsent = true → exec c s = .next (s.replies c .clear tag .badState .none)) ∧
      (l.isSet = true → l.unsent = false → l.pendingCount = 0 →
        exec c s = .next ((t.modLatch i fun l => { l with isSet := false, causes := 0 }).reply .clear tag .ok
          (.cleared false 0)).sent) ∧
      (l.isSet = true → l.unsent = false → 0 < l.pendingCount →
        exec c s = .next (((t.modLatch i fun l =>
          { l with causes := l.pendingCauses, raiseCount := l.pendingCount, pendingCount := 0
                   pendingCauses := 0 }).placeEvent i).reply .clear tag .ok (.cleared true l.pendingCauses)).sent)) ∧
    ∀ tag n, s.manages (.clear tag n) .clear tag → 120 < n →
      exec (.clear tag n) s = .next (s.replies (.clear tag n) .clear tag .badMessage .none)

/-! ## The boot memory and RESTART -/

/-- A BOOT_WRITE from its request to its reply (R188, R189): the form, BUSY while a write is in flight, the write begun; a
page acknowledged holds its bytes and every other byte stays; a page not acknowledged ends the write with MEMORY_FAULT at
the offset of its first byte and leaves every byte outside it; and the read-back ends it with OK or with the offset of the
first difference, the memory holding the bytes it gave back and every other byte as before. That a fault's offset is that
of the run's first byte in the page is the model's reading (log entry 16), that an acknowledged page holds its bytes and the
memory what it gave back its choice (log entry 18), the bytes of a page not acknowledged are free values (log entry 17),
and a byte missing from the read-back counts as a difference (log entry 48). -/
def Obligations.BootWriteFromRequestToReply : Prop :=
  ∀ s : State,
    (∀ tag offset (run : Bytes),
      let c : Instr := .bootWrite tag offset run
      s.manages c .bootWrite tag →
      (run.length = 0 ∨ 64 < run.length ∨ 8192 < offset + run.length →
        exec c s = .next (s.replies c .bootWrite tag .badMessage .none)) ∧
      (1 ≤ run.length → run.length ≤ 64 → offset + run.length ≤ 8192 →
        (s.boot.write ≠ none → exec c s = .next (s.replies c .bootWrite tag .busy .none)) ∧
        (s.boot.write = none → exec c s = .next { s.taken c .bootWrite tag with boot := { s.boot with
          write := some { tag := tag, offset := offset, run := run, written := 0, readback := false } } }.sent))) ∧
    ∀ w, s.atRest → s.memoryInv → s.boot.write = some w →
      let first := w.offset + w.written
      let done (c : Instr) (mem : List Host.Cell) (n : Nat) (code : Code) (body : Body) : State :=
        ({ s.takeDue c with boot := { s.boot with write := none }, bootMem := mem, freeCount := n }).reply .bootWrite w.tag
          code body
      (w.readback = false → w.written < w.run.length → ∃ mem, ∃ n : Nat,
        n = min (w.run.length - w.written) (32 - first % 32) ∧
        exec .bootPageWriteDone s = .next { s.takeDue .bootPageWriteDone with
          bootMem := mem
          boot := { s.boot with write := some { w with
            written := w.written + n, readback := decide (w.run.length ≤ w.written + n) } } }.sent ∧
        (∀ i, i < n → memRead mem (first + i) = w.run[w.written + i]?.getD 0) ∧
        (∀ a, a < first ∨ first + n ≤ a → memRead mem a = memRead s.bootMem a)) ∧
      (w.readback = false → ∃ mem,
        exec .bootWriteAckTimeout s =
          .next (done .bootWriteAckTimeout mem (s.freeCount + 1) .memoryFault (.offset first)).sent ∧
        ∀ a, a < first / 32 * 32 ∨ first / 32 * 32 + 32 ≤ a → memRead mem a = memRead s.bootMem a) ∧
      (∀ back : Bytes, w.readback = true → back = w.run → ∃ mem,
        exec (.bootReadbackDone back) s = .next (done (.bootReadbackDone back) mem s.freeCount .ok .none).sent ∧
        (∀ a, a < w.offset ∨ w.offset + w.run.length ≤ a → memRead mem a = memRead s.bootMem a) ∧
        ∀ i, i < w.run.length → some (memRead mem (w.offset + i)) = w.run[i]?) ∧
      (∀ (back : Bytes) k, w.readback = true → k < w.run.length → w.run[k]? ≠ back[k]? →
        (∀ j, j < k → w.run[j]? = back[j]?) → ∃ mem,
        exec (.bootReadbackDone back) s =
          .next (done (.bootReadbackDone back) mem s.freeCount .memoryFault (.offset (w.offset + k))).sent ∧
        (∀ a, a < w.offset ∨ w.offset + min w.run.length back.length ≤ a → memRead mem a = memRead s.bootMem a) ∧
        ∀ i, i < w.run.length → i < back.length → some (memRead mem (w.offset + i)) = back[i]?)

/-- RESTART (R190): answered OK and waiting from then on; while it waits every further request to the Management Engine, of
any kind and with any operands, is answered BUSY with no other effect, but BAD_MESSAGE when its form is wrong, which
is checked first (R183, R203; which checks are of form: log entries 27 and 42; a RESTART has none, log entry 40). The
Management Engine takes its requests one at a time in routed order (R183): one with another due ahead of it waits in its place, and one that a catch-up holds back keeps
its place among those that wait with it (log entry 31). -/
def Obligations.RestartWaitsForItsReply : Prop :=
  (∀ (c : Instr) (k : MsgKind) (tag : Tag) (form : Bool), managed c = some (k, tag, form) →
    ∀ (s : State) (waiting : Tag), s.accepts k tag → s.inTurn c →
      (form = false → exec c s = .next (s.replies c k tag .badMessage .none)) ∧
      (form = true → s.restart = some waiting → exec c s = .next (s.replies c k tag .busy .none))) ∧
  (∀ (c : Instr) (s : State), (managed c).isSome = true → s.atRest →
    (s.inTurn c ↔ ∀ d ∈ s.ahead c, managed d = none) ∧
    (¬ s.inTurn c → exec c s = .next { s with due := if c ∈ s.due then s.due else s.due ++ [c] }.sent)) ∧
  (∀ (c again : Instr) (s : State),
    let waits (d : Instr) : Bool := (managed d).isSome || match d with
      | .book _ _ _ | .alter _ _ _ | .withdraw _ _ _ | .keyCheckIn _ | .keyEnd _ | .keyExtend _ | .walkup _ _
      | .tickReport _ => true
      | _ => false
    (c ∉ s.due → s.ahead c = s.due ∧ s.holdBack c again = s.due ++ [again]) ∧
    ∀ before after, c ∉ before → s.due = before ++ c :: after → s.ahead c = before ∧
      s.holdBack c again = before ++ after.filter (fun d => !waits d) ++ again :: after.filter waits) ∧
  (∀ (s : State) (tag : Tag), let c : Instr := .restart tag
    s.manages c .restart tag → exec c s = .next
      { (s.taken c .restart tag).reply .restart tag .ok .none with restart := some tag }.sent) ∧
  ∀ (s : State) (tag waiting : Tag), s.restart = some waiting →
    (s.accepts .restart tag → let c : Instr := .restart tag
      s.inTurn c → exec c s = .next (s.replies c .restart tag .busy .none)) ∧
    (s.accepts .load tag → ∀ entry rec, s.inTurn (.loadFloorRecord tag entry rec) → exec (.loadFloorRecord tag entry rec) s =
      .next (s.replies (.loadFloorRecord tag entry rec) .load tag .busy .none)) ∧
    (s.accepts .control tag → ∀ line, line ≤ 3 → s.inTurn (.linePowerOn tag line) → exec (.linePowerOn tag line) s =
      .next (s.replies (.linePowerOn tag line) .control tag .busy .none)) ∧
    (s.accepts .control tag → ∀ line, 3 < line → s.inTurn (.linePowerOn tag line) → exec (.linePowerOn tag line) s =
      .next (s.replies (.linePowerOn tag line) .control tag .busy .none))

/-! ## Occupancy -/

/-- The evidence tick (R77 to R84): every room's record by the stages, from its sensor binding and its class as they stand;
SENSOR_STALE where a verdict has become UNKNOWN; and one report with an entry for each of the 48 rooms. -/
def Obligations.EvidenceTickComputesEveryRoom : Prop :=
  ∀ s : State, s.atRest → s.loading = false → ∃ (u : State) (entries : List ReportEntry),
    exec .evidenceTick s = .next { u with due := u.due ++ [Instr.tickReport entries] }.sent ∧
    u.due = (s.takeDue .evidenceTick).due ∧ entries.length = 48 ∧
    (∀ r, r < 48 →
      let e := s.ev r
      let c := s.classOf r
      let sum := min 65535 (e.value - e.value * c.decay / 256 + e.peak * c.weight + (if e.entryBump then c.bump else 0))
      let verdict : Verdict :=
        if c.tOn ≤ sum then .occupied else if sum < c.tOff then .vacant
        else if e.verdict = .occupied then .occupied else .vacant
      let x := u.ev r
      entries[r]? = some { verdict := x.verdict, vacantRun := x.vacantRun } ∧
      x.sampleSeen = false ∧ x.entryBump = false ∧
      (s.boundSensor r = none → x.verdict = .noSensor ∧ x.value = 0 ∧ x.peak = 0 ∧ x.stale = 0 ∧ x.vacantRun = 0) ∧
      (s.boundSensor r ≠ none → e.sampleSeen = false → 2 ≤ e.stale →
        x.verdict = .unknown ∧ x.stale = 3 ∧ x.value = e.value ∧ x.peak = e.peak ∧ x.vacantRun = e.vacantRun ∧
        (e.verdict ≠ .unknown → (u.latch (72 + r)).isSet = true)) ∧
      (s.boundSensor r ≠ none → e.sampleSeen = true ∨ e.stale < 2 →
        x.stale = (if e.sampleSeen then 0 else e.stale + 1) ∧ x.peak = e.peak ∧ x.value = sum ∧ x.verdict = verdict ∧
        x.vacantRun = (if verdict = .vacant then min 255 (e.vacantRun + 1) else 0))) ∧
    u.pool = s.pool ∧ u.rooms = s.rooms ∧ u.orders = s.orders ∧ u.drops = s.drops ∧ u.lines = s.lines ∧ u.clock = s.clock

/-- SAMPLE and ENTRY frames (R73 to R75): of a NORMAL drop of the right kind and its room they change that room's record
alone; of any other they change no record. A frame handed over with the room its drop was bound to as it arrived changes
that room's record, whatever the drop has become since. -/
def Obligations.SamplesAndEntriesReachTheirRoom : Prop :=
  (∀ (s : State) (src : FrameFrom) (room level : Nat) (isOpen : Bool), s.atRest → level ≤ 255 →
    src.room = some room →
    (room < 48 →
      exec (.sample src level) s = .next ((s.takeDue (.sample src level)).modEv room fun e =>
        { e with sampleSeen := true, peak := if e.sampleSeen then max e.peak level else level }).sent ∧
      exec (.entry src isOpen) s = .next ((s.takeDue (.entry src isOpen)).modEv room fun e =>
        { e with entryBump := true }).sent) ∧
    (48 ≤ room → exec (.sample src level) s = .next (s.takeDue (.sample src level)).sent ∧
      exec (.entry src isOpen) s = .next (s.takeDue (.entry src isOpen)).sent)) ∧
  ∀ (s : State) (drop : DropCode) (level : Nat) (isOpen : Bool), s.atRest → level ≤ 255 →
    let src : FrameFrom := { drop := drop, room := none }
    let d := s.drop drop
    (∀ r, d.kind = .roomSensor → d.mode = .normal → d.room = some r →
      exec (.sample src level) s = .next ((s.takeDue (.sample src level)).modEv r fun e =>
        { e with sampleSeen := true, peak := if e.sampleSeen then max e.peak level else level }).sent) ∧
    (d.kind ≠ .roomSensor ∨ d.mode ≠ .normal ∨ d.room = none →
      exec (.sample src level) s = .next (s.takeDue (.sample src level)).sent) ∧
    (∀ r, d.kind = .roomPanel → d.mode = .normal → d.room = some r →
      exec (.entry src isOpen) s = .next ((s.takeDue (.entry src isOpen)).modEv r fun e =>
        { e with entryBump := true }).sent) ∧
    (d.kind ≠ .roomPanel ∨ d.mode ≠ .normal ∨ d.room = none →
      exec (.entry src isOpen) s = .next (s.takeDue (.entry src isOpen)).sent)

/-- A tick report (R65 to R68): each room with its presence check-in, occupied-tick count and auto-end on its current
reservation as the one before left it; nothing while the clock is unset. That the rooms are taken by ascending index, which
fixes the order of their CLOSE_DONE events, is the model's choice (log entry 13). During a catch-up the report waits (R18; log
entry 31). -/
def Obligations.TickReportActsOnCurrentReservations : Prop :=
  (∀ (s : State) (entries : List ReportEntry), s.atRest → s.catchUp = true →
    let c : Instr := .tickReport entries
    exec c s = .next { s.takeDue c with due := s.holdBack c c }.sent) ∧
  (∀ (s : State) (entries : List ReportEntry), s.atRest → s.catchUp = false →
    let c : Instr := .tickReport entries
    (s.clock.isSet = false → exec c s = .next (s.takeDue c).sent) ∧
    (s.clock.isSet = true → entries.length = 48 →
      exec c s = .next ((entries.zipIdx.foldl (fun t x => ((t.presenceCheckIn x.2 x.1).countOccupied x.2 x.1).autoEndRoom
        x.2 x.1) (s.takeDue c))).sent)) ∧
  ∀ (s : State) (room slot : Nat) (e : ReportEntry), s.curSlot = some slot →
    (s.current room = none →
      s.presenceCheckIn room e = s ∧ s.countOccupied room e = s ∧ s.autoEndRoom room e = s) ∧
    ∀ i r, s.current room = some (i, r) →
      (r.state = .due → (s.classOf room).presence = true → e.verdict = .occupied →
        s.presenceCheckIn room e = s.changeRes i fun r =>
          { r with state := .inUse, checkIn := some { slot := slot, how := .presence }, dirty := true }) ∧
      (r.state ≠ .due ∨ (s.classOf room).presence = false ∨ e.verdict ≠ .occupied → s.presenceCheckIn room e = s) ∧
      (r.state = .inUse → e.verdict = .occupied →
        s.countOccupied room e = s.modRes i fun r => { r with occupied := min (r.occupied + 1) 65535 }) ∧
      (r.state ≠ .inUse ∨ e.verdict ≠ .occupied → s.countOccupied room e = s) ∧
      (r.state = .inUse → (s.classOf room).autoEnd ≠ 0 → (s.classOf room).autoEnd ≤ e.vacantRun →
        e.verdict = .vacant ∨ e.verdict = .occupied →
        s.autoEndRoom room e = (s.changeRes i fun r =>
          { r with state := .ended, stop := min r.stop (max (slot + 1) (r.start + 1)), endReason := some .autoEnd
                   closedAt := some { day := s.clock.day, slot := slot }, dirty := true }).closeDone room) ∧
      (r.state ≠ .inUse ∨ (s.classOf room).autoEnd = 0 ∨ e.vacantRun < (s.classOf room).autoEnd ∨
        e.verdict = .unknown ∨ e.verdict = .noSensor → s.autoEndRoom room e = s)

/-! ## Notices and panel requests -/

/-- Withdraw notices (R116) and order outcome notices (R64). A withdraw notice acts on each order of its record by the
order's state, comparing its own slot, or the current one, with the cutoff. For an order of a PAST record it appends no
CANCEL, and one whose record is no longer RELEASED or CANCELLED has no effect: the model's readings (log entry 11). That the
current slot counts as 0 while the clock is unset is the model's choice (log entry 26). An outcome notice sets the catering fault of a record
that still lists the order, and marks it dirty. -/
def Obligations.NoticesActOnOrdersAndRecords : Prop :=
  ∀ s : State,
    (∀ record slot, s.atRest →
      let c : Instr := .withdrawNotice record slot
      (∀ r, s.res record = some r → r.state = .released ∨ r.state = .cancelled →
        exec c s = .next (r.orders.foldl (State.withdrawOrder (slot.getD (s.curSlot.getD 0))) (s.takeDue c)).sent) ∧
      ((∀ r, s.res record = some r → r.state ≠ .released ∧ r.state ≠ .cancelled) →
        exec c s = .next (s.takeDue c).sent)) ∧
    (∀ j id, (s.order id = none → State.withdrawOrder j s id = s) ∧
      ∀ o, s.order id = some o →
        let becomes (t : State) (x : OrderState) : State := t.modOrder id fun o => { o with state := x }
        let unqueued : State := s.modPantry o.pantry fun p => { p with dispatch := p.dispatch.filter fun i => i ≠ id }
        (o.state = .held → State.withdrawOrder j s id = becomes s .cancelled) ∧
        (o.state = .queued → State.withdrawOrder j s id = becomes unqueued .cancelled) ∧
        (o.state = .sent ∨ o.state = .accepted → j < o.cutoff → s.orderPast o = true → State.withdrawOrder j s id = s) ∧
        (o.state = .sent ∨ o.state = .accepted → j < o.cutoff → s.orderPast o = false → State.withdrawOrder j s id =
          (s.modOrder id fun o => { o with state := .cancelPending, cancelPending := true }).modPantry o.pantry fun p =>
            { p with cancels := p.cancels ++ [id] }) ∧
        (o.state = .sent ∨ o.state = .accepted → o.cutoff ≤ j → State.withdrawOrder j s id = becomes s .wasted) ∧
        (o.state = .delivered → State.withdrawOrder j s id = becomes s .wasted) ∧
        (o.state = .cancelPending ∨ o.state.settled = true → o.state ≠ .delivered → State.withdrawOrder j s id = s)) ∧
    ∀ record order, s.atRest →
      let c : Instr := .orderOutcomeNotice record order
      (∀ r, s.res record = some r → order ∈ r.orders →
        exec c s = .next ((s.takeDue c).changeRes record fun r => { r with cateringFault := true, dirty := true }).sent) ∧
      ((∀ r, s.res record = some r → order ∉ r.orders) → exec c s = .next (s.takeDue c).sent)

/-- The KEY requests of a NORMAL room panel with a room (R52, R53, R55, R56): each is judged in its order of checks on the
room's TODAY list, its change made, and its answer put in the panel's answer slot; a frame from another drop has no effect.
A frame handed over with the room its panel was bound to as it arrived is judged for that room, and its answer is discarded
when the drop is by then no room panel, or ISOLATED (R152). The answer of a KEY END to a reservation whose end already lies
before its bound is a free value, the model's reading (log entry 14), and its record stays. During a catch-up a request of a
bound panel waits for its end, with the room it was bound to (R18; log entry 31). -/
def Obligations.PanelKeysAreJudged : Prop :=
  (∀ (s : State) (src : FrameFrom) (room : Nat), s.atRest → s.catchUp = true → room < 48 →
    (src.room = none ∧ (s.drop src.drop).kind = .roomPanel ∧ (s.drop src.drop).mode = .normal ∧
      (s.drop src.drop).room = some room) ∨ src.room = some room →
    ∀ request : FrameFrom → Instr, request = .keyCheckIn ∨ request = .keyEnd ∨ request = .keyExtend →
      exec (request src) s = .next { s with
        due := s.holdBack (request src) (request { drop := src.drop, room := some room }) }.sent) ∧
  ∀ (s : State) (src : FrameFrom), s.atRest → s.catchUp = false →
    let d := s.drop src.drop
    let answered (t : State) (q : PanelRequest) (x : AnswerResult) : State :=
      t.modDrop src.drop fun d =>
        if d.kind = .roomPanel ∧ d.mode ≠ .isolated then { d with answer := some { request := q, result := x } } else d
    ((src.room = none ∧ (d.kind ≠ .roomPanel ∨ d.mode ≠ .normal ∨ d.room = none)) ∨ (∃ r, src.room = some r ∧ 48 ≤ r) →
      ∀ c : Instr, c = .keyCheckIn src ∨ c = .keyEnd src ∨ c = .keyExtend src → exec c s = .next (s.takeDue c).sent) ∧
    ∀ room, (src.room = none ∧ d.kind = .roomPanel ∧ d.mode = .normal ∧ d.room = some room) ∨
        (src.room = some room ∧ room < 48) →
      let t (c : Instr) : State := s.takeDue c
      let refused (c : Instr) (q : PanelRequest) (why : Reason) : Prop :=
        exec c s = .next (answered (t c) q (.refused why)).sent
      (s.clock.isSet = false →
        refused (.keyCheckIn src) .checkIn .noTime ∧ refused (.keyEnd src) .finish .noTime ∧
        refused (.keyExtend src) .extend .noTime) ∧
      (s.clock.isSet = true → (s.room room).service ≠ .opened →
        refused (.keyCheckIn src) .checkIn .roomClosed ∧ refused (.keyExtend src) .extend .roomClosed) ∧
      ∀ now, s.curSlot = some now →
        ((s.room room).service = .opened →
          let c : Instr := .keyCheckIn src
          let granted (u : State) (r : Reservation) : Prop :=
            exec c s = .next (answered u .checkIn (.granted r.start r.stop)).sent
          let early (x : Nat × Reservation) : Bool := x.2.state = .booked && x.2.start = now + 1
          let late (x : Nat × Reservation) : Bool := x.2.state = .released && decide (now < x.2.stop)
          let ahead (x : Nat × Reservation) : Bool := x.2.state = .booked && decide (now + 1 < x.2.start)
          let list := s.todayRecords room
          (∀ i r, s.current room = some (i, r) → r.state = .due → granted ((t c).changeRes i fun r =>
            { r with state := .inUse, checkIn := some { slot := now, how := .key }, dirty := true }) r) ∧
          (∀ i r, s.current room = some (i, r) → r.state = .inUse → granted (t c) r) ∧
          (s.current room = none →
            (∀ i r, list.find? early = some (i, r) → r.early = true → granted (t c) r) ∧
            (∀ i r, list.find? early = some (i, r) → r.early = false →
              granted ((t c).changeRes i fun r => { r with early := true, dirty := true }) r) ∧
            (list.find? early = none → list.any late = true → refused c .checkIn .tooLate) ∧
            (list.find? early = none → list.any late = false → list.any ahead = true → refused c .checkIn .notYet) ∧
            (list.find? early = none → list.any late = false → list.any ahead = false →
              refused c .checkIn .noMeeting))) ∧
        (∀ c : Instr, c = .keyEnd src →
          (s.current room = none → refused c .finish .noMeeting) ∧
          ∀ i r, s.current room = some (i, r) →
            let bound := max (now + 1) (r.start + 1)
            (r.state = .due → refused c .finish .noMeeting) ∧
            (r.state = .inUse → bound < r.stop →
              exec c s = .next (answered (((t c).changeRes i fun r => { r with
                state := .ended, stop := bound, endReason := some .endEarly
                closedAt := some { day := s.clock.day, slot := now }, dirty := true }).closeDone room) .finish
                  (.granted r.start bound)).sent) ∧
            (r.state = .inUse → r.stop = bound →
              exec c s = .next (answered (t c) .finish (.granted r.start r.stop)).sent) ∧
            (r.state = .inUse → r.stop < bound → ∃ x, (x = .granted r.start r.stop ∨ x = .refused .noMeeting) ∧
              exec c s = .next (answered { t c with freeCount := s.freeCount + 1 } .finish x).sent)) ∧
        ((s.room room).service = .opened →
          let c : Instr := .keyExtend src
          (s.current room = none → refused c .extend .noMeeting) ∧
          ∀ i r, s.current room = some (i, r) →
            let clear := s.conflict room .today r.start (r.stop + 1) r.tail (some i)
            (r.state = .due → refused c .extend .noMeeting) ∧
            (r.state = .inUse → 288 < r.stop + 1 ∨ clear ≠ none → refused c .extend .nextTooSoon) ∧
            (r.state = .inUse → r.stop + 1 ≤ 288 → clear = none →
              exec c s = .next (answered ((t c).changeRes i fun r => { r with stop := r.stop + 1, dirty := true }) .extend
                (.granted r.start (r.stop + 1))).sent))

/-- WALKUP (R57, R58): the refusals in the order of the checks; the duration as the least of the clamped request, the
class maximum, the rest of the day and the room before the next blocked window; and a granted walk-up's record, IN_USE and
dirty, at the place the store gives. A WALKUP handed over with the room its panel was bound to as it arrived is judged for
that room, and its answer is discarded when the drop is by then no room panel, or ISOLATED (R152); one of a drop that is no
NORMAL room panel with a room has no effect (R52), and during a catch-up one waits (R18; log entry 31). That an ENDED record
whose tail window holds no slot counts as no blocked window is the model's reading (log entry 52). -/
def Obligations.WalkupIsJudged : Prop :=
  (∀ (s : State) (src : FrameFrom) (n : Nat), s.atRest →
    (src.room = none ∧ ((s.drop src.drop).kind ≠ .roomPanel ∨ (s.drop src.drop).mode ≠ .normal ∨
      (s.drop src.drop).room = none)) ∨ (∃ r, src.room = some r ∧ 48 ≤ r) →
    exec (.walkup src n) s = .next (s.takeDue (.walkup src n)).sent) ∧
  (∀ (s : State) (src : FrameFrom) (n room : Nat), s.atRest → s.catchUp = true → room < 48 →
    (src.room = none ∧ (s.drop src.drop).kind = .roomPanel ∧ (s.drop src.drop).mode = .normal ∧
      (s.drop src.drop).room = some room) ∨ src.room = some room →
    exec (.walkup src n) s = .next { s with
      due := s.holdBack (.walkup src n) (.walkup { drop := src.drop, room := some room } n) }.sent) ∧
  ∀ (s : State) (src : FrameFrom) (n room : Nat), s.atRest → s.catchUp = false → room < 48 →
    (src.room = none ∧ (s.drop src.drop).kind = .roomPanel ∧ (s.drop src.drop).mode = .normal ∧
      (s.drop src.drop).room = some room) ∨ src.room = some room →
    let c : Instr := .walkup src n
    let t := s.takeDue c
    let answered (u : State) (x : AnswerResult) : State :=
      u.modDrop src.drop fun d =>
        if d.kind = .roomPanel ∧ d.mode ≠ .isolated then { d with answer := some { request := .walkup, result := x } }
        else d
    let refused (why : Reason) : Prop := exec c s = .next (answered t (.refused why)).sent
    (s.clock.isSet = false → refused .noTime) ∧
    (s.clock.isSet = true → (s.room room).service ≠ .opened → refused .roomClosed) ∧
    ∀ now, s.curSlot = some now → (s.room room).service = .opened →
      (∀ i r, s.current room = some (i, r) → r.state = .inUse → refused .inUse) ∧
      (∀ i r, s.current room = some (i, r) → r.state = .due → refused .bookedNow) ∧
      (s.current room = none → s.inTurnaround room now = true → refused .turnaround) ∧
      (s.current room = none → s.inTurnaround room now = false → ∀ b : Nat,
        let starts (x : Nat) : Prop :=
          ∃ i r w, i ∈ (s.room room).today ∧ s.res i = some r ∧ r.blocked = some w ∧ w.1 < w.2 ∧ now ≤ w.1 ∧ x = w.1
        b ≤ 288 → (b = 288 ∨ starts b) → (∀ x, starts x → b ≤ x) →
        let k := s.classOf room
        let d : Int := min (min (min 12 (max 1 n)) k.walkupMax) (min (288 - now) ((b : Int) - now - k.turnaround))
        (d < 1 → refused .nextTooSoon) ∧
        (1 ≤ d → s.allocate room .today 0 = .error .roomListFull → refused .roomListFull) ∧
        (1 ≤ d → s.allocate room .today 0 = .error .poolFull → refused .poolFull) ∧
        (1 ≤ d → ∀ p, s.allocate room .today 0 = .ok p →
          let u := t.create p
            { room := room, day := .today, state := .inUse, start := now, stop := now + d.toNat, tail := k.turnaround
              origin := .panel, serverId := none, organiser := none, early := false
              checkIn := some { slot := now, how := .key }, endReason := none, closedAt := none, occupied := 0
              orders := [], cateringFault := false, version := 0, dirty := true }
          exec c s = .next (answered u (.granted now (now + d.toNat))).sent ∧
          (∀ j, j ≠ p.index → p.reclaim ≠ some j → u.res j = s.res j) ∧ p.index ∈ (u.room room).today))

/-! ## Catering -/

/-- A PANTRY_STATUS by link state (R99, R106 to R112): taken only from the drop that serves a pantry in NORMAL mode;
discarded while DOWN, and while SYNCING without the acknowledgement; the resync, and the report it may carry; and in UP the
limit, then the ACK or NACK against the outstanding span (R108), then the report. What the acknowledgement of a frame makes
of its order (R109); each order's sequence number afterwards, that of its latest frame still listed (R92, R99); and the
NACK that faults the link (R110). That the limit of a resync counts by the credit it leaves is the model's reading (log
entry 15). -/
def Obligations.PantryStatusIsTakenByLinkState : Prop :=
  (∀ (s : State) (f : ReplayFrame),
    (∀ id, f.order = some id → s.order id = none → s.acked f = s) ∧ (f.order = none → s.acked f = s) ∧
    ∀ id o, f.order = some id → s.order id = some o →
      let past : Prop := (s.res o.res).map Reservation.day = some .past
      let becomes (x : OrderState) : State := s.modOrder id fun o => { o with state := x }
      (f.kind = .order → o.state = .sent →
        (past → s.acked f = becomes .expired) ∧ (¬ past → s.acked f = becomes .accepted)) ∧
      (f.kind = .cancel → o.state = .cancelPending →
        (past → s.acked f = becomes .expired) ∧ (¬ past → s.acked f = becomes .cancelled)) ∧
      ((f.kind = .order ∧ o.state ≠ .sent) ∨ (f.kind = .cancel ∧ o.state ≠ .cancelPending) → s.acked f = s)) ∧
  (∀ (s : State) (p : Nat) (id : OrderId),
    (s.order id = none → (s.refreshSeqs p).order id = none) ∧
    ∀ o, s.order id = some o → ∃ seq,
      (s.refreshSeqs p).order id = some { o with seq := seq } ∧ (o.pantry ≠ p → seq = o.seq) ∧
      (o.pantry = p →
        ((∀ f ∈ (s.pantry p).replay, f.order ≠ some id) → seq = none) ∧
        ∀ older f newer, (s.pantry p).replay = older ++ f :: newer → f.order = some id →
          (∀ g ∈ newer, g.order ≠ some id) → seq = some f.seq)) ∧
  ∀ (s : State) (drop : DropCode) (status : PantryStatus),
    let c : Instr := .pantryStatus drop status
    (s.atRest → s.servedPantry drop = none ∨ (s.drop drop).mode ≠ .normal →
      exec c s = .next (s.takeDue c).sent) ∧
    ∀ p, s.servedPantry drop = some p →
      let x := s.pantry p
      let limited := s.modPantry p fun y => { y with
        limit := status.limit
        creditRange := if 128 ≤ (status.limit - x.consumed).toNat then min (y.creditRange + 1) 65535 else y.creditRange }
      (s.atRest → (s.drop drop).mode = .normal →
        exec c s = .next ((s.takeDue c).takeStatus p status).sent) ∧
      (x.link = .down → s.takeStatus p status = s) ∧
      (x.link = .syncing → status.resyncAck = false → s.takeStatus p status = s) ∧
      (x.link = .syncing → status.resyncAck = true →
        s.takeStatus p status = (s.takeStatus p { status with report := none }).takeReportOpt p status.report) ∧
      (s.takeReportOpt p none = s ∧ ∀ report, s.takeReportOpt p (some report) = s.takeReportOf p report) ∧
      (x.link = .syncing → status.resyncAck = true → status.report = none →
        let u := s.takeStatus p status
        let orders := x.replay.filter fun f => f.kind = .order
        (u.pantry p).link = .up ∧ (u.pantry p).limit = status.limit ∧ (u.pantry p).replayCount = 0 ∧
        (u.pantry p).taken = none ∧ (u.pantry p).nextSeq = BitVec.ofNat 8 x.replay.length ∧
        (u.pantry p).consumed = BitVec.ofNat 8 orders.length ∧ (u.pantry p).replay.length = x.replay.length ∧
        (∀ (i : Nat) f, x.replay[i]? = some f → (u.pantry p).replay[i]? = some { f with seq := BitVec.ofNat 8 i }) ∧
        (x.replay = [] → (u.pantry p).replayPos = none ∧ (u.pantry p).replayTimer = none) ∧
        (x.replay ≠ [] → (u.pantry p).replayPos = some 0 ∧ (u.pantry p).replayTimer =
          some { left := 1000 * 2 ^ x.timeoutCode, period := 1000 * 2 ^ x.timeoutCode }) ∧
        (u.pantry p).dispatch = x.dispatch ∧ (u.pantry p).cancels = x.cancels ∧
        (u.pantry p).creditRange = (if 128 ≤ (status.limit - BitVec.ofNat 8 orders.length).toNat then
          min (x.creditRange + 1) 65535 else x.creditRange) ∧
        u.orders = ({ s with pantries := u.pantries }.refreshSeqs p).orders ∧
        (u.latch (64 + p)).isSet = true ∧ u.pool = s.pool) ∧
      (x.link = .faulted → s.takeStatus p status = limited.takeReportOpt p status.report) ∧
      (x.link = .up → status.seq = none → s.takeStatus p status = limited.takeReportOpt p status.report) ∧
      (∀ n, x.link = .up → status.seq = some n → status.nack = false →
        s.takeStatus p status = (limited.takeAck p n).takeReportOpt p status.report) ∧
      (∀ n, x.link = .up → status.seq = some n → status.nack = true →
        s.takeStatus p status = (limited.takeNack p n).takeReportOpt p status.report) ∧
      (∀ n k, x.placeOf n = some k ↔ k < x.replay.length ∧ (n - x.oldest).toNat = k) ∧
      (∀ n k, x.placeOf n = some k →
        let rest := x.replay.drop (k + 1)
        (s.takeAck p n).pantry p = { x with
          replay := rest, replayCount := 0
          replayPos := if rest = [] then none else x.replayPos.map fun i => i - (k + 1)
          replayTimer := if rest = [] then none
                         else some { left := 1000 * 2 ^ x.timeoutCode, period := 1000 * 2 ^ x.timeoutCode } } ∧
        (s.takeAck p n).orders = ({ (x.replay.take (k + 1)).foldl State.acked s with
          pantries := (s.takeAck p n).pantries }.refreshSeqs p).orders ∧
        (s.takeAck p n).pool = s.pool) ∧
      (∀ n, x.placeOf n = none →
        (n = x.oldest - 1 → s.takeAck p n = s) ∧
        (n ≠ x.oldest - 1 → s.takeAck p n = s.modPantry p fun y => { y with staleAcks := min (y.staleAcks + 1) 65535 }) ∧
        s.takeNack p n = s.modPantry p fun y => { y with staleAcks := min (y.staleAcks + 1) 65535 }) ∧
      (∀ n, x.placeOf n = some 0 → x.replayCount < 3 →
        s.takeNack p n = s.modPantry p fun y => { y with replayPos := some 0, replayCount := x.replayCount + 1 }) ∧
      (∀ n k, x.placeOf n = some k → 0 < k → ((s.takeNack p n).pantry p).replay = x.replay.drop k ∧
        ((s.takeNack p n).pantry p).replayCount = 1 ∧ ((s.takeNack p n).pantry p).replayPos = some 0 ∧
        (s.takeNack p n).orders = ({ (x.replay.take k).foldl State.acked s with
          pantries := (s.takeNack p n).pantries }.refreshSeqs p).orders) ∧
      (∀ n, x.placeOf n = some 0 → 3 ≤ x.replayCount →
        let u := s.takeNack p n
        (u.pantry p).link = .faulted ∧ (u.pantry p).replayCount = 4 ∧ (u.pantry p).replay = [] ∧
        (u.pantry p).dispatch = [] ∧ (u.pantry p).cancels = [] ∧ (u.pantry p).replayTimer = none ∧
        (u.pantry p).replayPos = none ∧ (u.pantry p).nextSeq = x.nextSeq ∧
        (∀ q, q ≠ p → u.pantry q = s.pantry q) ∧
        (∀ id o, s.order id = some o → o.pantry = p → o.state = .sent ∨ o.state = .queued ∨ o.state = .cancelPending →
          u.order id = some { o with state := .failed, cancelPending := false, seq := none } ∧
          Instr.orderOutcomeNotice o.res id ∈ u.due) ∧
        (u.latch (64 + p)).isSet = true ∧ u.pool = s.pool) ∧
      (∀ report : PantryReport, ((s.takeReportOf p report).pantry p).taken = some report.order) ∧
      (∀ (report : PantryReport) o, s.order report.order = some o → o.pantry = p →
        o.state = .sent ∨ o.state = .accepted ∨ o.state = .cancelPending →
        let u := s.takeReportOf p report
        (report.refuse = none → u.order report.order = some { o with
          cancelPending := false
          state := match s.res o.res with
            | some r => if r.day = .past then .expired
                        else if r.state = .released ∨ r.state = .cancelled then .wasted else .delivered
            | none => .expired }) ∧
        (∀ why, report.refuse = some why →
          u.order report.order = some { o with cancelPending := false, state := .refused, refuseReason := some why } ∧
          Instr.orderOutcomeNotice o.res report.order ∈ u.due) ∧
        (u.pantry p).cancels = x.cancels.filter fun i => i ≠ report.order) ∧
      ∀ report : PantryReport,
        (∀ o, s.order report.order = some o → o.pantry ≠ p ∨
          (o.state ≠ .sent ∧ o.state ≠ .accepted ∧ o.state ≠ .cancelPending)) →
        s.takeReportOf p report = s.modPantry p fun y => { y with taken := some report.order }

/-! ## Turns -/

/-- The frame of a turn at a drop's own phase, with the queue's change (R101, R102, R104, R105, R113, R155 to R157), and the
display that a SHOW carries: the state code, ring and blinking by the rows of R161 in order, and the minutes, organiser,
offline flag and catering fault of R160. -/
def Obligations.FrameOfTurnIsNamed : Prop :=
  (∀ (s : State) (room : Nat),
    let isBooked (x : Nat × Reservation) : Bool := decide (x.2.state = .booked)
    let next := ((s.todayRecords room).find? isBooked).map Prod.snd
    let shown : Option Reservation := match s.current room with
      | some x => some x.2
      | none => next
    let turning (now : Nat) : Prop := ∃ i r, i ∈ (s.room room).today ∧ s.res i = some r ∧ r.state = .ended ∧
      r.stop ≤ now ∧ now < min (r.stop + r.tail) 288
    s.face none = (.noRoom, .off, false) ∧
    ((s.room room).service = .closing → s.face (some room) = (.closing, .red, true)) ∧
    ((s.room room).service = .closed → s.face (some room) = (.closed, .red, true)) ∧
    ((s.room room).service = .opened → s.clock.isSet = false → s.face (some room) = (.noTime, .off, false)) ∧
    (∀ now, (s.room room).service = .opened → s.curSlot = some now →
      (∀ i r, s.current room = some (i, r) →
        (r.state = .inUse → s.face (some room) = (.inUse, .red, false)) ∧
        (r.state = .due → now + 1 < r.start + (s.classOf room).grace → s.face (some room) = (.due, .amber, false)) ∧
        (r.state = .due → r.start + (s.classOf room).grace ≤ now + 1 → s.face (some room) = (.dueLast, .amber, true))) ∧
      (s.current room = none → turning now → s.face (some room) = (.turnaround, .off, false)) ∧
      (s.current room = none → ¬ turning now →
        (∀ r, next = some r → r.start ≤ now + 3 → s.face (some room) = (.freeSoon, .green, true)) ∧
        (∀ r, next = some r → now + 3 < r.start → s.face (some room) = (.free, .green, false)) ∧
        (next = none → s.face (some room) = (.free, .green, false)))) ∧
    s.display (some room) =
      { code := (s.face (some room)).1, ring := (s.face (some room)).2.1, blink := (s.face (some room)).2.2
        minutes := if s.clock.isSet then next.map fun r => 5 * r.start - s.clock.minute else none
        organiser := shown.bind Reservation.organiser, offline := !s.riser.online
        cateringFault := (shown.map Reservation.cateringFault).getD false } ∧
    s.display none =
      { code := .noRoom, ring := .off, blink := false, minutes := none, organiser := none, offline := !s.riser.online
        cateringFault := false }) ∧
  ∀ (s : State) (c : DropCode), validDrop c = true →
    let d := s.drop c
    let shown : State × DownFrame :=
      (s.modDrop c fun d => { d with stale := false, showLast := true, inFlight := .show }, .show (s.display d.room))
    let taken (rest : List Item) (x : InFlight) : State := s.modDrop c fun d =>
      { d with fifo := rest, showLast := false, inFlight := x }
    let idle : State := s.modDrop c fun d => { d with inFlight := .none }
    (d.kind = .roomPanel →
      (∀ a, d.answer = some a → s.dropFrame c =
        (s.modDrop c fun d => { d with answer := none, inFlight := .answer }, .answer a)) ∧
      (d.answer = none → d.stale = true → d.fifo = [] ∨ d.showLast = false → s.dropFrame c = shown) ∧
      (∀ state text rest, d.answer = none → d.stale = false ∨ d.showLast = true → d.fifo = .content state text :: rest →
        s.dropFrame c = (taken rest .content, .content (BitVec.ofNat 8 (s.face d.room).1.code) text)) ∧
      (∀ body rest, d.answer = none → d.stale = false ∨ d.showLast = true → d.fifo = .service body :: rest →
        s.dropFrame c = (taken rest .service, .service body)) ∧
      (d.answer = none → d.stale = false → d.fifo = [] → s.dropFrame c = (idle, .poll none))) ∧
    (d.kind = .roomSensor →
      (∀ body rest, d.fifo = .service body :: rest → s.dropFrame c = (taken rest .service, .service body)) ∧
      (d.fifo = [] → s.dropFrame c = (idle, .poll none))) ∧
    ∀ p, s.servedPantry c = some p →
      let x := s.pantry p
      let a := (x.limit - x.consumed).toNat
      let joined (kind : FrameKind) (id : OrderId) : List ReplayFrame :=
        x.replay ++ [{ kind := kind, seq := x.nextSeq, order := some id }]
      let timer : Option ReplayTimer :=
        if x.replay = [] then some { left := 1000 * 2 ^ x.timeoutCode, period := 1000 * 2 ^ x.timeoutCode }
        else x.replayTimer
      let replaying : Prop := ∃ i, x.replayPos = some i ∧ i < x.replay.length
      let none_ : Prop := s.dropFrame c = (s, .poll (some x.taken))
      (x.link = .syncing → s.dropFrame c = (s, .resync x.taken)) ∧
      (x.link = .down ∨ x.link = .faulted → none_) ∧
      (∀ i f id o, x.link = .up → x.replayPos = some i → x.replay[i]? = some f → f.order = some id → s.order id = some o →
        s.dropFrame c =
          (s.modPantry p fun y => { y with replayPos := if i + 1 < x.replay.length then some (i + 1) else none },
            match f.kind with
            | .order => .order x.taken f.seq (s.orderFields o)
            | .cancel => .cancel x.taken id f.seq)) ∧
      (∀ id rest, x.link = .up → ¬ replaying → x.replay.length < 32 → x.cancels = id :: rest →
        s.dropFrame c =
          ((s.modPantry p fun y => { y with
              cancels := rest, replay := joined .cancel id, nextSeq := x.nextSeq + 1, replayTimer := timer }).modOrder id
            fun o => { o with cancelPending := false, seq := some x.nextSeq },
            .cancel x.taken id x.nextSeq)) ∧
      (∀ id rest o, x.link = .up → ¬ replaying → x.replay.length < 32 → x.cancels = [] → x.dispatch = id :: rest →
        s.order id = some o → 1 ≤ a → a < 128 →
        s.dropFrame c =
          ((s.modPantry p fun y => { y with
              dispatch := rest, replay := joined .order id, nextSeq := x.nextSeq + 1, consumed := x.consumed + 1
              replayTimer := timer }).modOrder id fun o => { o with state := .sent, seq := some x.nextSeq },
            .order x.taken x.nextSeq (s.orderFields o))) ∧
      (x.link = .up → ¬ replaying → 32 ≤ x.replay.length ∨ (x.cancels = [] ∧ (x.dispatch = [] ∨ a = 0 ∨ 128 ≤ a)) → none_)

/-- The walk of a running line (R131 to R134): what each phase gives a turn to, the probe rotation, the phases skipped up to
the first that starts a turn, the walk parked after 32 skips, and the turn as it starts and as its frame is sent and
answered (R135). A turn at a drop's own phase makes the change of the queue that goes with its frame (R102, R104, R157: what
FrameOfTurnIsNamed says of dropFrame); a probe turn changes the line's record and the drop's in-flight item alone. -/
def Obligations.WalkStartsTurns : Prop :=
  ∀ (s : State) (l : Nat), s.atRest → l ≤ 3 →
    let x := s.line l
    let c : Instr := .walkPhase l
    let t := s.takeDue c
    let inRotation (a : Nat) : Prop := 1 ≤ a ∧ a ≤ 15 ∧
      let d := s.drop { line := l, addr := a }
      d.kind ≠ .unused ∧ (d.mode = .isolated ∨ d.mode = .excluded ∨ d.present = false)
    let turnAt (k : Nat) : Option (Nat × Bool) := (x.schedule[(x.pointer + k) % 32]?).bind (s.phaseTurn l)
    (x.state ≠ .running ∨ x.walk = .parked ∨ x.turn ≠ none → exec c s = .next t.sent) ∧
    (x.state = .running → x.walk = .walking → x.turn = none → x.pointer < 32 →
      (∀ k a probe, k < 32 → (∀ j, j < k → turnAt j = none) → turnAt k = some (a, probe) →
        exec c s = .next ((t.modLine l fun y => { y with pointer := (x.pointer + k) % 32 }).startTurn l a probe).sent) ∧
      ((∀ k, k < 32 → turnAt k = none) → exec c s = .next (t.modLine l fun y => { y with walk := .parked }).sent)) ∧
    s.phaseTurn l .empty = none ∧
    (∀ a, s.phaseTurn l (.address a) =
      let d := s.drop { line := l, addr := a }
      if (d.mode = .normal ∨ d.mode = .shadow) ∧ d.present = true then some (a, false) else none) ∧
    (∀ a probe, s.phaseTurn l .probe = some (a, probe) → probe = true ∧ inRotation a ∧
      ((x.cursor < a ∧ ∀ b, inRotation b → x.cursor < b → a ≤ b) ∨
       ((∀ b, inRotation b → b ≤ x.cursor) ∧ ∀ b, inRotation b → a ≤ b))) ∧
    (s.phaseTurn l .probe = none → ∀ a, ¬ inRotation a) ∧
    (∀ a probe, 1 ≤ a → a ≤ 15 → ∃ frame, ((s.startTurn l a probe).line l) = { x with
        cursor := if probe then a else x.cursor
        turn := some { addr := a, probe := probe, timeout := 2 ^ (x.timeoutCode + 1), waits := 0, abandoned := false
                       stage := .sending, frame := frame } } ∧
      let drop : DropCode := { line := l, addr := a }
      let set (u : State) : State := u.modLine l fun y => { y with
        cursor := if probe then a else y.cursor
        turn := some { addr := a, probe := probe, timeout := 2 ^ (y.timeoutCode + 1), waits := 0, abandoned := false
                       stage := .sending, frame := frame } }
      (probe = true → frame = .probe ∧
        s.startTurn l a probe = set (s.modDrop drop fun d => { d with inFlight := .none })) ∧
      (probe = false → frame = (s.dropFrame drop).2 ∧ s.startTurn l a probe = set (s.dropFrame drop).1)) ∧
    ∀ turn, x.state = .running → x.turn = some turn →
      (turn.stage = .sending → exec (.downFrameSent l) s = .next ((s.takeDue (.downFrameSent l)).modLine l fun y =>
        { y with turn := some { turn with stage := .waiting } }).sent) ∧
      (turn.stage = .waiting → turn.abandoned = false → x.incoming = none →
        exec (.upFrameFirstByte l) s = .next ((s.takeDue (.upFrameFirstByte l)).modLine l fun y =>
          { y with turn := some { turn with stage := .receiving } }).sent)

/-- How a turn ends (R135, R136, R138 to R142): a timeout, a frame that does not end or fails a check, a WAIT and the fourth
WAIT, a good frame, and a turn that waits out its timeout after a mode change. A frame whose first byte comes while no turn
waits is outside a turn, and an error also when it ends while the next turn waits (R135, R140); one that ends in the wait of
an abandoned turn, or begins there, is discarded uncounted (R141), and one outside RUNNING is discarded (R124). What becomes
of a frame that begins or ends during a down frame's transmission, runs on from one turn's time into another's, or is
cut short by another's first byte is the model's (log entry 37). A good turn's answer is passed on (R148, R153): IDLE goes
nowhere, an IDENT gives the reported kind and a new mismatch its cause, a frame of a drop not configured for it or not in NORMAL or SHADOW mode is counted as
ignored, one of a NORMAL drop reaches its block with the room bound as it arrived, and one of a SHADOW drop, or a SERVICE
answer, goes up as an UPFRAME (R154), in a free entry or in one whose grant has not been taken (R173), counted when there is
neither. An up frame that brings no UPFRAME comes after a late grant, one that does before it (R173, R174; log entry 50). The
third miss of a present drop makes it not present, with its cause PRESENCE raised and the link of the pantry that it serves
DOWN, queues and replay list kept; one of a drop that is not present raises nothing (R147). That the walk's next phase stands
ahead of a good turn's answer in the work that is due is the model's choice (R107, R134; log entry 2). That a panel that
becomes present is marked stale in every mode is the model's reading (log entry 46). -/
def Obligations.TurnsEndWithTheirOutcome : Prop :=
  (∀ (s : State) (c : DropCode) (kind : Byte) (body : Bytes),
    let d := s.drop c
    let ignored : State := s.modDrop c fun d => { d with ignoredFrames := min (d.ignoredFrames + 1) 65535 }
    let up : State :=
      if s.riser.freed = true ∨ 0 < s.freeEntries then { s with riser := { s.riser with
        freed := false
        localQueue := s.riser.localQueue ++ [.upframe s.floor.building s.floor.floor c kind body] } }
      else { s with riser := { s.riser with upframeDrops := min (s.riser.upframeDrops + 1) 65535 } }
    let panel : Prop := d.kind = .roomPanel ∧ d.room ≠ none
    let sensor : Prop := d.kind = .roomSensor ∧ d.room ≠ none
    let src : FrameFrom := { drop := c, room := d.room }
    let passed (f : UpFrame) (configured : Prop) (i : Instr) : Prop :=
      (¬ configured ∨ (d.mode ≠ .normal ∧ d.mode ≠ .shadow) → s.passOn c f kind body = ignored) ∧
      (configured → d.mode = .normal → s.passOn c f kind body = { s with due := s.due ++ [i] }) ∧
      (configured → d.mode = .shadow → s.passOn c f kind body = up)
    s.passOn c .idle kind body = s ∧
    (∀ k, let t := s.modDrop c fun d => { d with reported := some k }
      (d.kind ≠ .unused → d.kind ≠ k → d.reported ≠ some k →
        s.passOn c (.ident k) kind body = t.raise (dropIndex c) .kindMismatch) ∧
      (d.kind = .unused ∨ d.kind = k ∨ d.reported = some k → s.passOn c (.ident k) kind body = t)) ∧
    passed (.key .checkIn) panel (.keyCheckIn src) ∧ passed (.key .finish) panel (.keyEnd src) ∧
    passed (.key .extend) panel (.keyExtend src) ∧ (∀ n, passed (.walkup n) panel (.walkup src n)) ∧
    (∀ x, passed (.entry x) panel (.entry src x)) ∧ (∀ x, passed (.sample x) sensor (.sample src x)) ∧
    (∀ x, passed (.pantryStatus x) (s.servedPantry c ≠ none) (.pantryStatus c x)) ∧
    ∀ x, (d.mode = .normal ∨ d.mode = .shadow → s.passOn c (.serviceAnswer x) kind body = up) ∧
      (d.mode ≠ .normal → d.mode ≠ .shadow → s.passOn c (.serviceAnswer x) kind body = ignored)) ∧
  (∀ (s : State) (l : Nat) (turn : Turn) f kind body, 1 ≤ turn.addr → turn.addr ≤ 15 → l ≤ 3 →
    let drop : DropCode := { line := l, addr := turn.addr }
    s.goodTurn l turn f kind body =
      ((((s.modDrop drop fun d => { d with miss := 0, inFlight := .none }).becomePresent drop).endTurn l).passOn drop f kind
        body) ∧
    ((s.drop drop).present = true → s.becomePresent drop = s) ∧
    ((s.drop drop).present = false →
      ((s.becomePresent drop).drop drop).present = true ∧
      ((s.drop drop).kind = .roomPanel → ((s.becomePresent drop).drop drop).stale = true) ∧
      (∀ p, s.servedPantry drop = some p → (s.drop drop).mode = .normal → (s.pantry p).link = .down →
        ((s.becomePresent drop).pantry p).link = .syncing))) ∧
  (∀ (s : State) (l : Nat) (frame : Bytes), s.resetLow = false → s.riser.freed = true →
    let c : Instr := .upFrameReceived l frame
    let v := (s.takeDue c).takeUpFrame l frame
    (v.riser.freed = false → exec c s = .next v.sent) ∧
    (v.riser.freed = true → exec c s = exec c s.settled) ∧
    ∀ turn f k b, s.turnOf l = some turn → turn.stage ≠ .sending → turn.abandoned = false →
      (s.line l).incoming = none ∨ (s.line l).incoming = some .collided →
      checkFrame turn.addr frame = some (f, k, b) → f ≠ .wait →
        v = ((s.takeDue c).modLine l fun y => { y with incoming := none }).goodTurn l turn f k b) ∧
  ∀ (s : State) (l : Nat) (turn : Turn), s.atRest → l ≤ 3 →
    let x := s.line l
    let drop : DropCode := { line := l, addr := turn.addr }
    let error (u : State) : State := u.modLine l fun y => { y with errors := min (y.errors + 1) 65535 }
    let timeout (u : State) : State := u.modLine l fun y => { y with timeouts := min (y.timeouts + 1) 65535 }
    let ended (u : State) : State := u.modLine l fun y => { y with incoming := none }
    let ends (c : Instr) (frame : Bytes) : Prop := c = .upFrameReceived l frame ∨
      (c = .frameEndTimeout l ∧ frame = [] ∧ (x.incoming ≠ none ∨ (x.turn = some turn ∧ turn.stage = .receiving)))
    (∀ a, checkFrame a [] = none) ∧
    (x.state = .running → x.turn = some turn → turn.abandoned = false →
      (turn.stage = .waiting →
        exec (.answerTimeout l) s = .next ((timeout (s.takeDue (.answerTimeout l))).missTurn l turn).sent) ∧
      (turn.stage ≠ .sending → x.incoming = none ∨ x.incoming = some .collided → ∀ c frame, ends c frame →
        let t := ended (s.takeDue c)
        (checkFrame turn.addr frame = none → exec c s = .next ((error t).missTurn l turn).sent) ∧
        (∀ k b, checkFrame turn.addr frame = some (.wait, k, b) → turn.waits < 3 → exec c s = .next (t.modLine l fun y =>
          { y with turn := some { turn with waits := turn.waits + 1, stage := .waiting } }).sent) ∧
        (∀ k b, checkFrame turn.addr frame = some (.wait, k, b) → 3 ≤ turn.waits →
          exec c s = .next ((timeout t).missTurn l turn).sent) ∧
        (∀ f k b, checkFrame turn.addr frame = some (f, k, b) → f ≠ .wait →
          exec c s = .next (t.goodTurn l turn f k b).sent))) ∧
    (x.state = .running → x.turn = some turn → turn.abandoned = true → turn.stage ≠ .sending →
      (∀ c frame, ends c frame → exec c s = .next ((s.takeDue c).modLine l fun y =>
        { y with incoming := none, turn := some { turn with stage := .waiting } }).sent) ∧
      exec (.abandonedTurnEnd l) s = .next ((s.takeDue (.abandonedTurnEnd l)).endTurn l).sent) ∧
    (∀ c frame, ends c frame →
      (x.state = .running → x.turn = none ∨ (x.turn = some turn ∧ turn.stage = .sending) → x.incoming ≠ some .discarded →
        exec c s = .next (error (ended (s.takeDue c))).sent) ∧
      (x.state = .running → x.turn = none ∨ (x.turn = some turn ∧ (turn.abandoned = false ∨ turn.stage = .sending)) →
        (x.incoming = some .outside → exec c s = .next (error (ended (s.takeDue c))).sent) ∧
        (x.incoming = some .discarded → exec c s = .next (ended (s.takeDue c)).sent)) ∧
      (x.state ≠ .running → exec c s = .next (s.takeDue c).sent)) ∧
    (x.incoming = none → x.turn = none ∨ (x.turn = some turn ∧ turn.stage ≠ .receiving) →
      exec (.frameEndTimeout l) s = .next (s.takeDue (.frameEndTimeout l)).sent) ∧
    (let c : Instr := .upFrameFirstByte l
     let t := s.takeDue c
     let counted (y : Line) : Nat := if y.incoming = some .outside then min (y.errors + 1) 65535 else y.errors
     (x.state ≠ .running → exec c s = .next t.sent) ∧
     (x.state = .running → x.turn = none → exec c s = .next (t.modLine l fun y =>
       { y with incoming := some .outside, errors := counted y }).sent) ∧
     (x.state = .running → x.turn = some turn →
       (turn.stage = .sending → exec c s = .next (t.modLine l fun y =>
         { y with incoming := some .collided, errors := counted y }).sent) ∧
       (turn.stage = .waiting → exec c s = .next (t.modLine l fun y =>
         { y with incoming := none, errors := if turn.abandoned then y.errors else counted y
                  turn := some { turn with stage := .receiving } }).sent) ∧
       (turn.stage = .receiving → exec c s = .next t.sent))) ∧
    (let y := (s.endTurn l).line l
     y = { x with turn := none, pointer := if x.reload then 0 else (x.pointer + 1) % 32, reload := false
                  incoming := y.incoming } ∧
     (x.turn = none → y.incoming = x.incoming) ∧
     (x.turn = some turn → turn.abandoned = false →
       y.incoming = if x.incoming = some .collided then some .outside else x.incoming) ∧
     (x.turn = some turn → turn.abandoned = true →
       y.incoming = if turn.stage = .receiving ∨ x.incoming ≠ none then some .discarded else none) ∧
     Instr.walkPhase l ∈ (s.endTurn l).due) ∧
    (1 ≤ turn.addr → turn.addr ≤ 15 →
      let d := s.drop drop
      let u := s.missTurn l turn
      ((u.drop drop).miss = min 3 (d.miss + 1) ∧ (u.drop drop).inFlight = .none ∧ (u.drop drop).mode = d.mode ∧
        (u.drop drop).fifo = d.fifo ∧ (u.drop drop).present = (d.present && decide (d.miss < 2)) ∧
        (d.inFlight = .show → (u.drop drop).stale = true) ∧
        (d.inFlight = .content ∨ d.inFlight = .service →
          (u.drop drop).droppedItems = min (d.droppedItems + 1) 65535)) ∧
      (let lost : Prop := d.present = true ∧ 2 ≤ d.miss
       let raised := s.raise (l * 15 + turn.addr - 1) .presence
       (lost → u.latches = raised.latches ∧ u.unsent = raised.unsent ∧ u.riser = raised.riser ∧
         ∀ p, s.servedPantry drop = some p →
           ((s.pantry p).link = .down → u.pantry p = s.pantry p) ∧
           ((s.pantry p).link ≠ .down →
             u.pantry p = { s.pantry p with link := .down, replayPos := none, replayTimer := none })) ∧
       (¬ lost → u.latches = s.latches ∧ u.unsent = s.unsent ∧ u.riser = s.riser) ∧
       (¬ lost ∨ s.servedPantry drop = none → u.pantries = s.pantries) ∧ u.orders = s.orders) ∧
      ∀ f k b, let v := s.goodTurn l turn f k b
        (v.drop drop).miss = 0 ∧ (v.drop drop).inFlight = .none ∧ (v.drop drop).present = true ∧
        (v.drop drop).mode = d.mode ∧ (v.drop drop).fifo = d.fifo ∧
        (∀ j, f = .ident j → (v.drop drop).reported = some j) ∧
        (d.present = false → (v.latch (l * 15 + turn.addr - 1)).isSet = true))

/-- The check byte (R137): the register starts at 0xFF; each byte is combined with it and shifts it left eight times, with
0x07 for each bit 1 shifted out; a down frame ends with the check byte of its other bytes; the same calculation over a frame
with its check byte gives 0; and an up frame that does not give 0 is bad. -/
def Obligations.CheckByteIsTheLineCrc : Prop :=
  checkByte [] = 0xFF ∧
  (∀ (bs : Bytes) (b : Byte),
    let shift (r : Byte) : Byte := if r.msb then (r <<< 1) ^^^ 0x07 else r <<< 1
    checkByte (bs ++ [b]) =
      shift (shift (shift (shift (shift (shift (shift (shift (checkByte bs ^^^ b))))))))) ∧
  (∀ bs : Bytes, checkByte (bs ++ [checkByte bs]) = 0) ∧
  (∀ (f : DownFrame) (addr : Nat), ∃ head, f.bytes addr = head ++ [checkByte head]) ∧
  ∀ (addr : Nat) (frame : Bytes), checkByte frame ≠ 0 → checkFrame addr frame = none

/-! ## Invariants -/

/-- The state after reset meets the four invariants that the steps keep (their rules: R12, R71, R168, R172, R188, R192). -/
def Obligations.ResetMeetsInvariants : Prop :=
  State.reset.memoryInv ∧ State.reset.riserInv ∧ State.reset.latchInv ∧ State.reset.rangeInv

/-- Every step keeps the boot memory in its canonical form and a write in flight inside the memory (R188, R189). -/
def Obligations.StepsKeepTheMemoryInvariant : Prop :=
  ∀ s t : State, s.memoryInv → step s = .next t → t.memoryInv

/-- Every step keeps the queues of the Riser Port within their capacities (R168) and the reservations of work in progress
(R172). -/
def Obligations.StepsKeepTheRiserInvariant : Prop :=
  ∀ s t : State, s.riserInv → step s = .next t → t.riserInv

/-- Every step keeps the latches and the unsent list in agreement (R192 to R195). -/
def Obligations.StepsKeepTheLatchInvariant : Prop :=
  ∀ s t : State, s.latchInv → step s = .next t → t.latchInv

/-- Every step keeps the Floor Clock and the evidence records within their ranges (R12, R71). -/
def Obligations.StepsKeepTheRanges : Prop :=
  ∀ s t : State, s.rangeInv → step s = .next t → t.rangeInv
end

