-- ==== Sys2Proof/Laws/State.lean ====
section
/-! SUPPORT. One lemma per field per update of State, all true by `rfl`: no proof need unfold an update. -/

namespace Sys2Proof.Machine

variable (s : State)

/-! ## hand -/

@[simp] theorem State.hand_pending (c : Instr) : (s.hand c).pending = s.pending := rfl
@[simp] theorem State.hand_due (c : Instr) : (s.hand c).due = s.due ++ [c] := rfl
@[simp] theorem State.hand_freeCount (c : Instr) : (s.hand c).freeCount = s.freeCount := rfl
@[simp] theorem State.hand_resetLow (c : Instr) : (s.hand c).resetLow = s.resetLow := rfl
@[simp] theorem State.hand_floor (c : Instr) : (s.hand c).floor = s.floor := rfl
@[simp] theorem State.hand_riser (c : Instr) : (s.hand c).riser = s.riser := rfl
@[simp] theorem State.hand_clock (c : Instr) : (s.hand c).clock = s.clock := rfl
@[simp] theorem State.hand_timeStep (c : Instr) : (s.hand c).timeStep = s.timeStep := rfl
@[simp] theorem State.hand_roomMap (c : Instr) : (s.hand c).roomMap = s.roomMap := rfl
@[simp] theorem State.hand_classes (c : Instr) : (s.hand c).classes = s.classes := rfl
@[simp] theorem State.hand_rooms (c : Instr) : (s.hand c).rooms = s.rooms := rfl
@[simp] theorem State.hand_pool (c : Instr) : (s.hand c).pool = s.pool := rfl
@[simp] theorem State.hand_evidence (c : Instr) : (s.hand c).evidence = s.evidence := rfl
@[simp] theorem State.hand_orders (c : Instr) : (s.hand c).orders = s.orders := rfl
@[simp] theorem State.hand_pantries (c : Instr) : (s.hand c).pantries = s.pantries := rfl
@[simp] theorem State.hand_lines (c : Instr) : (s.hand c).lines = s.lines := rfl
@[simp] theorem State.hand_drops (c : Instr) : (s.hand c).drops = s.drops := rfl
@[simp] theorem State.hand_latches (c : Instr) : (s.hand c).latches = s.latches := rfl
@[simp] theorem State.hand_unsent (c : Instr) : (s.hand c).unsent = s.unsent := rfl
@[simp] theorem State.hand_flushCount (c : Instr) : (s.hand c).flushCount = s.flushCount := rfl
@[simp] theorem State.hand_discardCount (c : Instr) : (s.hand c).discardCount = s.discardCount := rfl
@[simp] theorem State.hand_restart (c : Instr) : (s.hand c).restart = s.restart := rfl
@[simp] theorem State.hand_boot (c : Instr) : (s.hand c).boot = s.boot := rfl
@[simp] theorem State.hand_bootMem (c : Instr) : (s.hand c).bootMem = s.bootMem := rfl

/-! ## takeDue -/

@[simp] theorem State.takeDue_pending (c : Instr) : (s.takeDue c).pending = s.pending := rfl
@[simp] theorem State.takeDue_due (c : Instr) : (s.takeDue c).due = s.due.erase c := rfl
@[simp] theorem State.takeDue_freeCount (c : Instr) : (s.takeDue c).freeCount = s.freeCount := rfl
@[simp] theorem State.takeDue_resetLow (c : Instr) : (s.takeDue c).resetLow = s.resetLow := rfl
@[simp] theorem State.takeDue_floor (c : Instr) : (s.takeDue c).floor = s.floor := rfl
@[simp] theorem State.takeDue_riser (c : Instr) : (s.takeDue c).riser = s.riser := rfl
@[simp] theorem State.takeDue_clock (c : Instr) : (s.takeDue c).clock = s.clock := rfl
@[simp] theorem State.takeDue_timeStep (c : Instr) : (s.takeDue c).timeStep = s.timeStep := rfl
@[simp] theorem State.takeDue_roomMap (c : Instr) : (s.takeDue c).roomMap = s.roomMap := rfl
@[simp] theorem State.takeDue_classes (c : Instr) : (s.takeDue c).classes = s.classes := rfl
@[simp] theorem State.takeDue_rooms (c : Instr) : (s.takeDue c).rooms = s.rooms := rfl
@[simp] theorem State.takeDue_pool (c : Instr) : (s.takeDue c).pool = s.pool := rfl
@[simp] theorem State.takeDue_evidence (c : Instr) : (s.takeDue c).evidence = s.evidence := rfl
@[simp] theorem State.takeDue_orders (c : Instr) : (s.takeDue c).orders = s.orders := rfl
@[simp] theorem State.takeDue_pantries (c : Instr) : (s.takeDue c).pantries = s.pantries := rfl
@[simp] theorem State.takeDue_lines (c : Instr) : (s.takeDue c).lines = s.lines := rfl
@[simp] theorem State.takeDue_drops (c : Instr) : (s.takeDue c).drops = s.drops := rfl
@[simp] theorem State.takeDue_latches (c : Instr) : (s.takeDue c).latches = s.latches := rfl
@[simp] theorem State.takeDue_unsent (c : Instr) : (s.takeDue c).unsent = s.unsent := rfl
@[simp] theorem State.takeDue_flushCount (c : Instr) : (s.takeDue c).flushCount = s.flushCount := rfl
@[simp] theorem State.takeDue_discardCount (c : Instr) : (s.takeDue c).discardCount = s.discardCount := rfl
@[simp] theorem State.takeDue_restart (c : Instr) : (s.takeDue c).restart = s.restart := rfl
@[simp] theorem State.takeDue_boot (c : Instr) : (s.takeDue c).boot = s.boot := rfl
@[simp] theorem State.takeDue_bootMem (c : Instr) : (s.takeDue c).bootMem = s.bootMem := rfl

/-! ## handNotice -/

@[simp] theorem State.handNotice_pending (c : Instr) : (s.handNotice c).pending = s.pending := rfl
@[simp] theorem State.handNotice_due (c : Instr) : (s.handNotice c).due = insertBeforeBoundary c s.due := rfl
@[simp] theorem State.handNotice_freeCount (c : Instr) : (s.handNotice c).freeCount = s.freeCount := rfl
@[simp] theorem State.handNotice_resetLow (c : Instr) : (s.handNotice c).resetLow = s.resetLow := rfl
@[simp] theorem State.handNotice_floor (c : Instr) : (s.handNotice c).floor = s.floor := rfl
@[simp] theorem State.handNotice_riser (c : Instr) : (s.handNotice c).riser = s.riser := rfl
@[simp] theorem State.handNotice_clock (c : Instr) : (s.handNotice c).clock = s.clock := rfl
@[simp] theorem State.handNotice_timeStep (c : Instr) : (s.handNotice c).timeStep = s.timeStep := rfl
@[simp] theorem State.handNotice_roomMap (c : Instr) : (s.handNotice c).roomMap = s.roomMap := rfl
@[simp] theorem State.handNotice_classes (c : Instr) : (s.handNotice c).classes = s.classes := rfl
@[simp] theorem State.handNotice_rooms (c : Instr) : (s.handNotice c).rooms = s.rooms := rfl
@[simp] theorem State.handNotice_pool (c : Instr) : (s.handNotice c).pool = s.pool := rfl
@[simp] theorem State.handNotice_evidence (c : Instr) : (s.handNotice c).evidence = s.evidence := rfl
@[simp] theorem State.handNotice_orders (c : Instr) : (s.handNotice c).orders = s.orders := rfl
@[simp] theorem State.handNotice_pantries (c : Instr) : (s.handNotice c).pantries = s.pantries := rfl
@[simp] theorem State.handNotice_lines (c : Instr) : (s.handNotice c).lines = s.lines := rfl
@[simp] theorem State.handNotice_drops (c : Instr) : (s.handNotice c).drops = s.drops := rfl
@[simp] theorem State.handNotice_latches (c : Instr) : (s.handNotice c).latches = s.latches := rfl
@[simp] theorem State.handNotice_unsent (c : Instr) : (s.handNotice c).unsent = s.unsent := rfl
@[simp] theorem State.handNotice_flushCount (c : Instr) : (s.handNotice c).flushCount = s.flushCount := rfl
@[simp] theorem State.handNotice_discardCount (c : Instr) : (s.handNotice c).discardCount = s.discardCount := rfl
@[simp] theorem State.handNotice_restart (c : Instr) : (s.handNotice c).restart = s.restart := rfl
@[simp] theorem State.handNotice_boot (c : Instr) : (s.handNotice c).boot = s.boot := rfl
@[simp] theorem State.handNotice_bootMem (c : Instr) : (s.handNotice c).bootMem = s.bootMem := rfl

/-! ## modRoom -/

@[simp] theorem State.modRoom_pending (r : Nat) (f : RoomEntry → RoomEntry) : (s.modRoom r f).pending = s.pending := rfl
@[simp] theorem State.modRoom_due (r : Nat) (f : RoomEntry → RoomEntry) : (s.modRoom r f).due = s.due := rfl
@[simp] theorem State.modRoom_freeCount (r : Nat) (f : RoomEntry → RoomEntry) : (s.modRoom r f).freeCount = s.freeCount := rfl
@[simp] theorem State.modRoom_resetLow (r : Nat) (f : RoomEntry → RoomEntry) : (s.modRoom r f).resetLow = s.resetLow := rfl
@[simp] theorem State.modRoom_floor (r : Nat) (f : RoomEntry → RoomEntry) : (s.modRoom r f).floor = s.floor := rfl
@[simp] theorem State.modRoom_riser (r : Nat) (f : RoomEntry → RoomEntry) : (s.modRoom r f).riser = s.riser := rfl
@[simp] theorem State.modRoom_clock (r : Nat) (f : RoomEntry → RoomEntry) : (s.modRoom r f).clock = s.clock := rfl
@[simp] theorem State.modRoom_timeStep (r : Nat) (f : RoomEntry → RoomEntry) : (s.modRoom r f).timeStep = s.timeStep := rfl
@[simp] theorem State.modRoom_roomMap (r : Nat) (f : RoomEntry → RoomEntry) : (s.modRoom r f).roomMap = s.roomMap := rfl
@[simp] theorem State.modRoom_classes (r : Nat) (f : RoomEntry → RoomEntry) : (s.modRoom r f).classes = s.classes := rfl
@[simp] theorem State.modRoom_rooms (r : Nat) (f : RoomEntry → RoomEntry) : (s.modRoom r f).rooms = updAt s.rooms r f := rfl
@[simp] theorem State.modRoom_pool (r : Nat) (f : RoomEntry → RoomEntry) : (s.modRoom r f).pool = s.pool := rfl
@[simp] theorem State.modRoom_evidence (r : Nat) (f : RoomEntry → RoomEntry) : (s.modRoom r f).evidence = s.evidence := rfl
@[simp] theorem State.modRoom_orders (r : Nat) (f : RoomEntry → RoomEntry) : (s.modRoom r f).orders = s.orders := rfl
@[simp] theorem State.modRoom_pantries (r : Nat) (f : RoomEntry → RoomEntry) : (s.modRoom r f).pantries = s.pantries := rfl
@[simp] theorem State.modRoom_lines (r : Nat) (f : RoomEntry → RoomEntry) : (s.modRoom r f).lines = s.lines := rfl
@[simp] theorem State.modRoom_drops (r : Nat) (f : RoomEntry → RoomEntry) : (s.modRoom r f).drops = s.drops := rfl
@[simp] theorem State.modRoom_latches (r : Nat) (f : RoomEntry → RoomEntry) : (s.modRoom r f).latches = s.latches := rfl
@[simp] theorem State.modRoom_unsent (r : Nat) (f : RoomEntry → RoomEntry) : (s.modRoom r f).unsent = s.unsent := rfl
@[simp] theorem State.modRoom_flushCount (r : Nat) (f : RoomEntry → RoomEntry) : (s.modRoom r f).flushCount = s.flushCount := rfl
@[simp] theorem State.modRoom_discardCount (r : Nat) (f : RoomEntry → RoomEntry) : (s.modRoom r f).discardCount = s.discardCount := rfl
@[simp] theorem State.modRoom_restart (r : Nat) (f : RoomEntry → RoomEntry) : (s.modRoom r f).restart = s.restart := rfl
@[simp] theorem State.modRoom_boot (r : Nat) (f : RoomEntry → RoomEntry) : (s.modRoom r f).boot = s.boot := rfl
@[simp] theorem State.modRoom_bootMem (r : Nat) (f : RoomEntry → RoomEntry) : (s.modRoom r f).bootMem = s.bootMem := rfl

/-! ## setRes -/

@[simp] theorem State.setRes_pending (i : Nat) (r : Option Reservation) : (s.setRes i r).pending = s.pending := rfl
@[simp] theorem State.setRes_due (i : Nat) (r : Option Reservation) : (s.setRes i r).due = s.due := rfl
@[simp] theorem State.setRes_freeCount (i : Nat) (r : Option Reservation) : (s.setRes i r).freeCount = s.freeCount := rfl
@[simp] theorem State.setRes_resetLow (i : Nat) (r : Option Reservation) : (s.setRes i r).resetLow = s.resetLow := rfl
@[simp] theorem State.setRes_floor (i : Nat) (r : Option Reservation) : (s.setRes i r).floor = s.floor := rfl
@[simp] theorem State.setRes_riser (i : Nat) (r : Option Reservation) : (s.setRes i r).riser = s.riser := rfl
@[simp] theorem State.setRes_clock (i : Nat) (r : Option Reservation) : (s.setRes i r).clock = s.clock := rfl
@[simp] theorem State.setRes_timeStep (i : Nat) (r : Option Reservation) : (s.setRes i r).timeStep = s.timeStep := rfl
@[simp] theorem State.setRes_roomMap (i : Nat) (r : Option Reservation) : (s.setRes i r).roomMap = s.roomMap := rfl
@[simp] theorem State.setRes_classes (i : Nat) (r : Option Reservation) : (s.setRes i r).classes = s.classes := rfl
@[simp] theorem State.setRes_rooms (i : Nat) (r : Option Reservation) : (s.setRes i r).rooms = s.rooms := rfl
@[simp] theorem State.setRes_pool (i : Nat) (r : Option Reservation) : (s.setRes i r).pool = updAt s.pool i fun _ => r := rfl
@[simp] theorem State.setRes_evidence (i : Nat) (r : Option Reservation) : (s.setRes i r).evidence = s.evidence := rfl
@[simp] theorem State.setRes_orders (i : Nat) (r : Option Reservation) : (s.setRes i r).orders = s.orders := rfl
@[simp] theorem State.setRes_pantries (i : Nat) (r : Option Reservation) : (s.setRes i r).pantries = s.pantries := rfl
@[simp] theorem State.setRes_lines (i : Nat) (r : Option Reservation) : (s.setRes i r).lines = s.lines := rfl
@[simp] theorem State.setRes_drops (i : Nat) (r : Option Reservation) : (s.setRes i r).drops = s.drops := rfl
@[simp] theorem State.setRes_latches (i : Nat) (r : Option Reservation) : (s.setRes i r).latches = s.latches := rfl
@[simp] theorem State.setRes_unsent (i : Nat) (r : Option Reservation) : (s.setRes i r).unsent = s.unsent := rfl
@[simp] theorem State.setRes_flushCount (i : Nat) (r : Option Reservation) : (s.setRes i r).flushCount = s.flushCount := rfl
@[simp] theorem State.setRes_discardCount (i : Nat) (r : Option Reservation) : (s.setRes i r).discardCount = s.discardCount := rfl
@[simp] theorem State.setRes_restart (i : Nat) (r : Option Reservation) : (s.setRes i r).restart = s.restart := rfl
@[simp] theorem State.setRes_boot (i : Nat) (r : Option Reservation) : (s.setRes i r).boot = s.boot := rfl
@[simp] theorem State.setRes_bootMem (i : Nat) (r : Option Reservation) : (s.setRes i r).bootMem = s.bootMem := rfl

/-! ## modRes -/

@[simp] theorem State.modRes_pending (i : Nat) (f : Reservation → Reservation) : (s.modRes i f).pending = s.pending := rfl
@[simp] theorem State.modRes_due (i : Nat) (f : Reservation → Reservation) : (s.modRes i f).due = s.due := rfl
@[simp] theorem State.modRes_freeCount (i : Nat) (f : Reservation → Reservation) : (s.modRes i f).freeCount = s.freeCount := rfl
@[simp] theorem State.modRes_resetLow (i : Nat) (f : Reservation → Reservation) : (s.modRes i f).resetLow = s.resetLow := rfl
@[simp] theorem State.modRes_floor (i : Nat) (f : Reservation → Reservation) : (s.modRes i f).floor = s.floor := rfl
@[simp] theorem State.modRes_riser (i : Nat) (f : Reservation → Reservation) : (s.modRes i f).riser = s.riser := rfl
@[simp] theorem State.modRes_clock (i : Nat) (f : Reservation → Reservation) : (s.modRes i f).clock = s.clock := rfl
@[simp] theorem State.modRes_timeStep (i : Nat) (f : Reservation → Reservation) : (s.modRes i f).timeStep = s.timeStep := rfl
@[simp] theorem State.modRes_roomMap (i : Nat) (f : Reservation → Reservation) : (s.modRes i f).roomMap = s.roomMap := rfl
@[simp] theorem State.modRes_classes (i : Nat) (f : Reservation → Reservation) : (s.modRes i f).classes = s.classes := rfl
@[simp] theorem State.modRes_rooms (i : Nat) (f : Reservation → Reservation) : (s.modRes i f).rooms = s.rooms := rfl
@[simp] theorem State.modRes_pool (i : Nat) (f : Reservation → Reservation) :
    (s.modRes i f).pool = updAt s.pool i fun r => r.map f := rfl
@[simp] theorem State.modRes_evidence (i : Nat) (f : Reservation → Reservation) : (s.modRes i f).evidence = s.evidence := rfl
@[simp] theorem State.modRes_orders (i : Nat) (f : Reservation → Reservation) : (s.modRes i f).orders = s.orders := rfl
@[simp] theorem State.modRes_pantries (i : Nat) (f : Reservation → Reservation) : (s.modRes i f).pantries = s.pantries := rfl
@[simp] theorem State.modRes_lines (i : Nat) (f : Reservation → Reservation) : (s.modRes i f).lines = s.lines := rfl
@[simp] theorem State.modRes_drops (i : Nat) (f : Reservation → Reservation) : (s.modRes i f).drops = s.drops := rfl
@[simp] theorem State.modRes_latches (i : Nat) (f : Reservation → Reservation) : (s.modRes i f).latches = s.latches := rfl
@[simp] theorem State.modRes_unsent (i : Nat) (f : Reservation → Reservation) : (s.modRes i f).unsent = s.unsent := rfl
@[simp] theorem State.modRes_flushCount (i : Nat) (f : Reservation → Reservation) : (s.modRes i f).flushCount = s.flushCount := rfl
@[simp] theorem State.modRes_discardCount (i : Nat) (f : Reservation → Reservation) : (s.modRes i f).discardCount = s.discardCount := rfl
@[simp] theorem State.modRes_restart (i : Nat) (f : Reservation → Reservation) : (s.modRes i f).restart = s.restart := rfl
@[simp] theorem State.modRes_boot (i : Nat) (f : Reservation → Reservation) : (s.modRes i f).boot = s.boot := rfl
@[simp] theorem State.modRes_bootMem (i : Nat) (f : Reservation → Reservation) : (s.modRes i f).bootMem = s.bootMem := rfl

/-! ## modEv -/

@[simp] theorem State.modEv_pending (r : Nat) (f : Evidence → Evidence) : (s.modEv r f).pending = s.pending := rfl
@[simp] theorem State.modEv_due (r : Nat) (f : Evidence → Evidence) : (s.modEv r f).due = s.due := rfl
@[simp] theorem State.modEv_freeCount (r : Nat) (f : Evidence → Evidence) : (s.modEv r f).freeCount = s.freeCount := rfl
@[simp] theorem State.modEv_resetLow (r : Nat) (f : Evidence → Evidence) : (s.modEv r f).resetLow = s.resetLow := rfl
@[simp] theorem State.modEv_floor (r : Nat) (f : Evidence → Evidence) : (s.modEv r f).floor = s.floor := rfl
@[simp] theorem State.modEv_riser (r : Nat) (f : Evidence → Evidence) : (s.modEv r f).riser = s.riser := rfl
@[simp] theorem State.modEv_clock (r : Nat) (f : Evidence → Evidence) : (s.modEv r f).clock = s.clock := rfl
@[simp] theorem State.modEv_timeStep (r : Nat) (f : Evidence → Evidence) : (s.modEv r f).timeStep = s.timeStep := rfl
@[simp] theorem State.modEv_roomMap (r : Nat) (f : Evidence → Evidence) : (s.modEv r f).roomMap = s.roomMap := rfl
@[simp] theorem State.modEv_classes (r : Nat) (f : Evidence → Evidence) : (s.modEv r f).classes = s.classes := rfl
@[simp] theorem State.modEv_rooms (r : Nat) (f : Evidence → Evidence) : (s.modEv r f).rooms = s.rooms := rfl
@[simp] theorem State.modEv_pool (r : Nat) (f : Evidence → Evidence) : (s.modEv r f).pool = s.pool := rfl
@[simp] theorem State.modEv_evidence (r : Nat) (f : Evidence → Evidence) : (s.modEv r f).evidence = updAt s.evidence r f := rfl
@[simp] theorem State.modEv_orders (r : Nat) (f : Evidence → Evidence) : (s.modEv r f).orders = s.orders := rfl
@[simp] theorem State.modEv_pantries (r : Nat) (f : Evidence → Evidence) : (s.modEv r f).pantries = s.pantries := rfl
@[simp] theorem State.modEv_lines (r : Nat) (f : Evidence → Evidence) : (s.modEv r f).lines = s.lines := rfl
@[simp] theorem State.modEv_drops (r : Nat) (f : Evidence → Evidence) : (s.modEv r f).drops = s.drops := rfl
@[simp] theorem State.modEv_latches (r : Nat) (f : Evidence → Evidence) : (s.modEv r f).latches = s.latches := rfl
@[simp] theorem State.modEv_unsent (r : Nat) (f : Evidence → Evidence) : (s.modEv r f).unsent = s.unsent := rfl
@[simp] theorem State.modEv_flushCount (r : Nat) (f : Evidence → Evidence) : (s.modEv r f).flushCount = s.flushCount := rfl
@[simp] theorem State.modEv_discardCount (r : Nat) (f : Evidence → Evidence) : (s.modEv r f).discardCount = s.discardCount := rfl
@[simp] theorem State.modEv_restart (r : Nat) (f : Evidence → Evidence) : (s.modEv r f).restart = s.restart := rfl
@[simp] theorem State.modEv_boot (r : Nat) (f : Evidence → Evidence) : (s.modEv r f).boot = s.boot := rfl
@[simp] theorem State.modEv_bootMem (r : Nat) (f : Evidence → Evidence) : (s.modEv r f).bootMem = s.bootMem := rfl

/-! ## modPantry -/

@[simp] theorem State.modPantry_pending (p : Nat) (f : Pantry → Pantry) : (s.modPantry p f).pending = s.pending := rfl
@[simp] theorem State.modPantry_due (p : Nat) (f : Pantry → Pantry) : (s.modPantry p f).due = s.due := rfl
@[simp] theorem State.modPantry_freeCount (p : Nat) (f : Pantry → Pantry) : (s.modPantry p f).freeCount = s.freeCount := rfl
@[simp] theorem State.modPantry_resetLow (p : Nat) (f : Pantry → Pantry) : (s.modPantry p f).resetLow = s.resetLow := rfl
@[simp] theorem State.modPantry_floor (p : Nat) (f : Pantry → Pantry) : (s.modPantry p f).floor = s.floor := rfl
@[simp] theorem State.modPantry_riser (p : Nat) (f : Pantry → Pantry) : (s.modPantry p f).riser = s.riser := rfl
@[simp] theorem State.modPantry_clock (p : Nat) (f : Pantry → Pantry) : (s.modPantry p f).clock = s.clock := rfl
@[simp] theorem State.modPantry_timeStep (p : Nat) (f : Pantry → Pantry) : (s.modPantry p f).timeStep = s.timeStep := rfl
@[simp] theorem State.modPantry_roomMap (p : Nat) (f : Pantry → Pantry) : (s.modPantry p f).roomMap = s.roomMap := rfl
@[simp] theorem State.modPantry_classes (p : Nat) (f : Pantry → Pantry) : (s.modPantry p f).classes = s.classes := rfl
@[simp] theorem State.modPantry_rooms (p : Nat) (f : Pantry → Pantry) : (s.modPantry p f).rooms = s.rooms := rfl
@[simp] theorem State.modPantry_pool (p : Nat) (f : Pantry → Pantry) : (s.modPantry p f).pool = s.pool := rfl
@[simp] theorem State.modPantry_evidence (p : Nat) (f : Pantry → Pantry) : (s.modPantry p f).evidence = s.evidence := rfl
@[simp] theorem State.modPantry_orders (p : Nat) (f : Pantry → Pantry) : (s.modPantry p f).orders = s.orders := rfl
@[simp] theorem State.modPantry_pantries (p : Nat) (f : Pantry → Pantry) : (s.modPantry p f).pantries = updAt s.pantries p f := rfl
@[simp] theorem State.modPantry_lines (p : Nat) (f : Pantry → Pantry) : (s.modPantry p f).lines = s.lines := rfl
@[simp] theorem State.modPantry_drops (p : Nat) (f : Pantry → Pantry) : (s.modPantry p f).drops = s.drops := rfl
@[simp] theorem State.modPantry_latches (p : Nat) (f : Pantry → Pantry) : (s.modPantry p f).latches = s.latches := rfl
@[simp] theorem State.modPantry_unsent (p : Nat) (f : Pantry → Pantry) : (s.modPantry p f).unsent = s.unsent := rfl
@[simp] theorem State.modPantry_flushCount (p : Nat) (f : Pantry → Pantry) : (s.modPantry p f).flushCount = s.flushCount := rfl
@[simp] theorem State.modPantry_discardCount (p : Nat) (f : Pantry → Pantry) : (s.modPantry p f).discardCount = s.discardCount := rfl
@[simp] theorem State.modPantry_restart (p : Nat) (f : Pantry → Pantry) : (s.modPantry p f).restart = s.restart := rfl
@[simp] theorem State.modPantry_boot (p : Nat) (f : Pantry → Pantry) : (s.modPantry p f).boot = s.boot := rfl
@[simp] theorem State.modPantry_bootMem (p : Nat) (f : Pantry → Pantry) : (s.modPantry p f).bootMem = s.bootMem := rfl

/-! ## modLine -/

@[simp] theorem State.modLine_pending (l : Nat) (f : Line → Line) : (s.modLine l f).pending = s.pending := rfl
@[simp] theorem State.modLine_due (l : Nat) (f : Line → Line) : (s.modLine l f).due = s.due := rfl
@[simp] theorem State.modLine_freeCount (l : Nat) (f : Line → Line) : (s.modLine l f).freeCount = s.freeCount := rfl
@[simp] theorem State.modLine_resetLow (l : Nat) (f : Line → Line) : (s.modLine l f).resetLow = s.resetLow := rfl
@[simp] theorem State.modLine_floor (l : Nat) (f : Line → Line) : (s.modLine l f).floor = s.floor := rfl
@[simp] theorem State.modLine_riser (l : Nat) (f : Line → Line) : (s.modLine l f).riser = s.riser := rfl
@[simp] theorem State.modLine_clock (l : Nat) (f : Line → Line) : (s.modLine l f).clock = s.clock := rfl
@[simp] theorem State.modLine_timeStep (l : Nat) (f : Line → Line) : (s.modLine l f).timeStep = s.timeStep := rfl
@[simp] theorem State.modLine_roomMap (l : Nat) (f : Line → Line) : (s.modLine l f).roomMap = s.roomMap := rfl
@[simp] theorem State.modLine_classes (l : Nat) (f : Line → Line) : (s.modLine l f).classes = s.classes := rfl
@[simp] theorem State.modLine_rooms (l : Nat) (f : Line → Line) : (s.modLine l f).rooms = s.rooms := rfl
@[simp] theorem State.modLine_pool (l : Nat) (f : Line → Line) : (s.modLine l f).pool = s.pool := rfl
@[simp] theorem State.modLine_evidence (l : Nat) (f : Line → Line) : (s.modLine l f).evidence = s.evidence := rfl
@[simp] theorem State.modLine_orders (l : Nat) (f : Line → Line) : (s.modLine l f).orders = s.orders := rfl
@[simp] theorem State.modLine_pantries (l : Nat) (f : Line → Line) : (s.modLine l f).pantries = s.pantries := rfl
@[simp] theorem State.modLine_lines (l : Nat) (f : Line → Line) : (s.modLine l f).lines = updAt s.lines l f := rfl
@[simp] theorem State.modLine_drops (l : Nat) (f : Line → Line) : (s.modLine l f).drops = s.drops := rfl
@[simp] theorem State.modLine_latches (l : Nat) (f : Line → Line) : (s.modLine l f).latches = s.latches := rfl
@[simp] theorem State.modLine_unsent (l : Nat) (f : Line → Line) : (s.modLine l f).unsent = s.unsent := rfl
@[simp] theorem State.modLine_flushCount (l : Nat) (f : Line → Line) : (s.modLine l f).flushCount = s.flushCount := rfl
@[simp] theorem State.modLine_discardCount (l : Nat) (f : Line → Line) : (s.modLine l f).discardCount = s.discardCount := rfl
@[simp] theorem State.modLine_restart (l : Nat) (f : Line → Line) : (s.modLine l f).restart = s.restart := rfl
@[simp] theorem State.modLine_boot (l : Nat) (f : Line → Line) : (s.modLine l f).boot = s.boot := rfl
@[simp] theorem State.modLine_bootMem (l : Nat) (f : Line → Line) : (s.modLine l f).bootMem = s.bootMem := rfl

/-! ## modDropAt -/

@[simp] theorem State.modDropAt_pending (i : Nat) (f : Drop → Drop) : (s.modDropAt i f).pending = s.pending := rfl
@[simp] theorem State.modDropAt_due (i : Nat) (f : Drop → Drop) : (s.modDropAt i f).due = s.due := rfl
@[simp] theorem State.modDropAt_freeCount (i : Nat) (f : Drop → Drop) : (s.modDropAt i f).freeCount = s.freeCount := rfl
@[simp] theorem State.modDropAt_resetLow (i : Nat) (f : Drop → Drop) : (s.modDropAt i f).resetLow = s.resetLow := rfl
@[simp] theorem State.modDropAt_floor (i : Nat) (f : Drop → Drop) : (s.modDropAt i f).floor = s.floor := rfl
@[simp] theorem State.modDropAt_riser (i : Nat) (f : Drop → Drop) : (s.modDropAt i f).riser = s.riser := rfl
@[simp] theorem State.modDropAt_clock (i : Nat) (f : Drop → Drop) : (s.modDropAt i f).clock = s.clock := rfl
@[simp] theorem State.modDropAt_timeStep (i : Nat) (f : Drop → Drop) : (s.modDropAt i f).timeStep = s.timeStep := rfl
@[simp] theorem State.modDropAt_roomMap (i : Nat) (f : Drop → Drop) : (s.modDropAt i f).roomMap = s.roomMap := rfl
@[simp] theorem State.modDropAt_classes (i : Nat) (f : Drop → Drop) : (s.modDropAt i f).classes = s.classes := rfl
@[simp] theorem State.modDropAt_rooms (i : Nat) (f : Drop → Drop) : (s.modDropAt i f).rooms = s.rooms := rfl
@[simp] theorem State.modDropAt_pool (i : Nat) (f : Drop → Drop) : (s.modDropAt i f).pool = s.pool := rfl
@[simp] theorem State.modDropAt_evidence (i : Nat) (f : Drop → Drop) : (s.modDropAt i f).evidence = s.evidence := rfl
@[simp] theorem State.modDropAt_orders (i : Nat) (f : Drop → Drop) : (s.modDropAt i f).orders = s.orders := rfl
@[simp] theorem State.modDropAt_pantries (i : Nat) (f : Drop → Drop) : (s.modDropAt i f).pantries = s.pantries := rfl
@[simp] theorem State.modDropAt_lines (i : Nat) (f : Drop → Drop) : (s.modDropAt i f).lines = s.lines := rfl
@[simp] theorem State.modDropAt_drops (i : Nat) (f : Drop → Drop) : (s.modDropAt i f).drops = updAt s.drops i f := rfl
@[simp] theorem State.modDropAt_latches (i : Nat) (f : Drop → Drop) : (s.modDropAt i f).latches = s.latches := rfl
@[simp] theorem State.modDropAt_unsent (i : Nat) (f : Drop → Drop) : (s.modDropAt i f).unsent = s.unsent := rfl
@[simp] theorem State.modDropAt_flushCount (i : Nat) (f : Drop → Drop) : (s.modDropAt i f).flushCount = s.flushCount := rfl
@[simp] theorem State.modDropAt_discardCount (i : Nat) (f : Drop → Drop) : (s.modDropAt i f).discardCount = s.discardCount := rfl
@[simp] theorem State.modDropAt_restart (i : Nat) (f : Drop → Drop) : (s.modDropAt i f).restart = s.restart := rfl
@[simp] theorem State.modDropAt_boot (i : Nat) (f : Drop → Drop) : (s.modDropAt i f).boot = s.boot := rfl
@[simp] theorem State.modDropAt_bootMem (i : Nat) (f : Drop → Drop) : (s.modDropAt i f).bootMem = s.bootMem := rfl

/-! ## modLatch -/

@[simp] theorem State.modLatch_pending (i : Nat) (f : Latch → Latch) : (s.modLatch i f).pending = s.pending := rfl
@[simp] theorem State.modLatch_due (i : Nat) (f : Latch → Latch) : (s.modLatch i f).due = s.due := rfl
@[simp] theorem State.modLatch_freeCount (i : Nat) (f : Latch → Latch) : (s.modLatch i f).freeCount = s.freeCount := rfl
@[simp] theorem State.modLatch_resetLow (i : Nat) (f : Latch → Latch) : (s.modLatch i f).resetLow = s.resetLow := rfl
@[simp] theorem State.modLatch_floor (i : Nat) (f : Latch → Latch) : (s.modLatch i f).floor = s.floor := rfl
@[simp] theorem State.modLatch_riser (i : Nat) (f : Latch → Latch) : (s.modLatch i f).riser = s.riser := rfl
@[simp] theorem State.modLatch_clock (i : Nat) (f : Latch → Latch) : (s.modLatch i f).clock = s.clock := rfl
@[simp] theorem State.modLatch_timeStep (i : Nat) (f : Latch → Latch) : (s.modLatch i f).timeStep = s.timeStep := rfl
@[simp] theorem State.modLatch_roomMap (i : Nat) (f : Latch → Latch) : (s.modLatch i f).roomMap = s.roomMap := rfl
@[simp] theorem State.modLatch_classes (i : Nat) (f : Latch → Latch) : (s.modLatch i f).classes = s.classes := rfl
@[simp] theorem State.modLatch_rooms (i : Nat) (f : Latch → Latch) : (s.modLatch i f).rooms = s.rooms := rfl
@[simp] theorem State.modLatch_pool (i : Nat) (f : Latch → Latch) : (s.modLatch i f).pool = s.pool := rfl
@[simp] theorem State.modLatch_evidence (i : Nat) (f : Latch → Latch) : (s.modLatch i f).evidence = s.evidence := rfl
@[simp] theorem State.modLatch_orders (i : Nat) (f : Latch → Latch) : (s.modLatch i f).orders = s.orders := rfl
@[simp] theorem State.modLatch_pantries (i : Nat) (f : Latch → Latch) : (s.modLatch i f).pantries = s.pantries := rfl
@[simp] theorem State.modLatch_lines (i : Nat) (f : Latch → Latch) : (s.modLatch i f).lines = s.lines := rfl
@[simp] theorem State.modLatch_drops (i : Nat) (f : Latch → Latch) : (s.modLatch i f).drops = s.drops := rfl
@[simp] theorem State.modLatch_latches (i : Nat) (f : Latch → Latch) : (s.modLatch i f).latches = updAt s.latches i f := rfl
@[simp] theorem State.modLatch_unsent (i : Nat) (f : Latch → Latch) : (s.modLatch i f).unsent = s.unsent := rfl
@[simp] theorem State.modLatch_flushCount (i : Nat) (f : Latch → Latch) : (s.modLatch i f).flushCount = s.flushCount := rfl
@[simp] theorem State.modLatch_discardCount (i : Nat) (f : Latch → Latch) : (s.modLatch i f).discardCount = s.discardCount := rfl
@[simp] theorem State.modLatch_restart (i : Nat) (f : Latch → Latch) : (s.modLatch i f).restart = s.restart := rfl
@[simp] theorem State.modLatch_boot (i : Nat) (f : Latch → Latch) : (s.modLatch i f).boot = s.boot := rfl
@[simp] theorem State.modLatch_bootMem (i : Nat) (f : Latch → Latch) : (s.modLatch i f).bootMem = s.bootMem := rfl

/-! ## modRiser -/

@[simp] theorem State.modRiser_pending (f : Riser → Riser) : (s.modRiser f).pending = s.pending := rfl
@[simp] theorem State.modRiser_due (f : Riser → Riser) : (s.modRiser f).due = s.due := rfl
@[simp] theorem State.modRiser_freeCount (f : Riser → Riser) : (s.modRiser f).freeCount = s.freeCount := rfl
@[simp] theorem State.modRiser_resetLow (f : Riser → Riser) : (s.modRiser f).resetLow = s.resetLow := rfl
@[simp] theorem State.modRiser_floor (f : Riser → Riser) : (s.modRiser f).floor = s.floor := rfl
@[simp] theorem State.modRiser_riser (f : Riser → Riser) : (s.modRiser f).riser = f s.riser := rfl
@[simp] theorem State.modRiser_clock (f : Riser → Riser) : (s.modRiser f).clock = s.clock := rfl
@[simp] theorem State.modRiser_timeStep (f : Riser → Riser) : (s.modRiser f).timeStep = s.timeStep := rfl
@[simp] theorem State.modRiser_roomMap (f : Riser → Riser) : (s.modRiser f).roomMap = s.roomMap := rfl
@[simp] theorem State.modRiser_classes (f : Riser → Riser) : (s.modRiser f).classes = s.classes := rfl
@[simp] theorem State.modRiser_rooms (f : Riser → Riser) : (s.modRiser f).rooms = s.rooms := rfl
@[simp] theorem State.modRiser_pool (f : Riser → Riser) : (s.modRiser f).pool = s.pool := rfl
@[simp] theorem State.modRiser_evidence (f : Riser → Riser) : (s.modRiser f).evidence = s.evidence := rfl
@[simp] theorem State.modRiser_orders (f : Riser → Riser) : (s.modRiser f).orders = s.orders := rfl
@[simp] theorem State.modRiser_pantries (f : Riser → Riser) : (s.modRiser f).pantries = s.pantries := rfl
@[simp] theorem State.modRiser_lines (f : Riser → Riser) : (s.modRiser f).lines = s.lines := rfl
@[simp] theorem State.modRiser_drops (f : Riser → Riser) : (s.modRiser f).drops = s.drops := rfl
@[simp] theorem State.modRiser_latches (f : Riser → Riser) : (s.modRiser f).latches = s.latches := rfl
@[simp] theorem State.modRiser_unsent (f : Riser → Riser) : (s.modRiser f).unsent = s.unsent := rfl
@[simp] theorem State.modRiser_flushCount (f : Riser → Riser) : (s.modRiser f).flushCount = s.flushCount := rfl
@[simp] theorem State.modRiser_discardCount (f : Riser → Riser) : (s.modRiser f).discardCount = s.discardCount := rfl
@[simp] theorem State.modRiser_restart (f : Riser → Riser) : (s.modRiser f).restart = s.restart := rfl
@[simp] theorem State.modRiser_boot (f : Riser → Riser) : (s.modRiser f).boot = s.boot := rfl
@[simp] theorem State.modRiser_bootMem (f : Riser → Riser) : (s.modRiser f).bootMem = s.bootMem := rfl

/-! ## modBoot -/

@[simp] theorem State.modBoot_pending (f : Boot → Boot) : (s.modBoot f).pending = s.pending := rfl
@[simp] theorem State.modBoot_due (f : Boot → Boot) : (s.modBoot f).due = s.due := rfl
@[simp] theorem State.modBoot_freeCount (f : Boot → Boot) : (s.modBoot f).freeCount = s.freeCount := rfl
@[simp] theorem State.modBoot_resetLow (f : Boot → Boot) : (s.modBoot f).resetLow = s.resetLow := rfl
@[simp] theorem State.modBoot_floor (f : Boot → Boot) : (s.modBoot f).floor = s.floor := rfl
@[simp] theorem State.modBoot_riser (f : Boot → Boot) : (s.modBoot f).riser = s.riser := rfl
@[simp] theorem State.modBoot_clock (f : Boot → Boot) : (s.modBoot f).clock = s.clock := rfl
@[simp] theorem State.modBoot_timeStep (f : Boot → Boot) : (s.modBoot f).timeStep = s.timeStep := rfl
@[simp] theorem State.modBoot_roomMap (f : Boot → Boot) : (s.modBoot f).roomMap = s.roomMap := rfl
@[simp] theorem State.modBoot_classes (f : Boot → Boot) : (s.modBoot f).classes = s.classes := rfl
@[simp] theorem State.modBoot_rooms (f : Boot → Boot) : (s.modBoot f).rooms = s.rooms := rfl
@[simp] theorem State.modBoot_pool (f : Boot → Boot) : (s.modBoot f).pool = s.pool := rfl
@[simp] theorem State.modBoot_evidence (f : Boot → Boot) : (s.modBoot f).evidence = s.evidence := rfl
@[simp] theorem State.modBoot_orders (f : Boot → Boot) : (s.modBoot f).orders = s.orders := rfl
@[simp] theorem State.modBoot_pantries (f : Boot → Boot) : (s.modBoot f).pantries = s.pantries := rfl
@[simp] theorem State.modBoot_lines (f : Boot → Boot) : (s.modBoot f).lines = s.lines := rfl
@[simp] theorem State.modBoot_drops (f : Boot → Boot) : (s.modBoot f).drops = s.drops := rfl
@[simp] theorem State.modBoot_latches (f : Boot → Boot) : (s.modBoot f).latches = s.latches := rfl
@[simp] theorem State.modBoot_unsent (f : Boot → Boot) : (s.modBoot f).unsent = s.unsent := rfl
@[simp] theorem State.modBoot_flushCount (f : Boot → Boot) : (s.modBoot f).flushCount = s.flushCount := rfl
@[simp] theorem State.modBoot_discardCount (f : Boot → Boot) : (s.modBoot f).discardCount = s.discardCount := rfl
@[simp] theorem State.modBoot_restart (f : Boot → Boot) : (s.modBoot f).restart = s.restart := rfl
@[simp] theorem State.modBoot_boot (f : Boot → Boot) : (s.modBoot f).boot = f s.boot := rfl
@[simp] theorem State.modBoot_bootMem (f : Boot → Boot) : (s.modBoot f).bootMem = s.bootMem := rfl

/-! ## modOrder -/

@[simp] theorem State.modOrder_pending (id : OrderId) (f : Order → Order) : (s.modOrder id f).pending = s.pending := rfl
@[simp] theorem State.modOrder_due (id : OrderId) (f : Order → Order) : (s.modOrder id f).due = s.due := rfl
@[simp] theorem State.modOrder_freeCount (id : OrderId) (f : Order → Order) : (s.modOrder id f).freeCount = s.freeCount := rfl
@[simp] theorem State.modOrder_resetLow (id : OrderId) (f : Order → Order) : (s.modOrder id f).resetLow = s.resetLow := rfl
@[simp] theorem State.modOrder_floor (id : OrderId) (f : Order → Order) : (s.modOrder id f).floor = s.floor := rfl
@[simp] theorem State.modOrder_riser (id : OrderId) (f : Order → Order) : (s.modOrder id f).riser = s.riser := rfl
@[simp] theorem State.modOrder_clock (id : OrderId) (f : Order → Order) : (s.modOrder id f).clock = s.clock := rfl
@[simp] theorem State.modOrder_timeStep (id : OrderId) (f : Order → Order) : (s.modOrder id f).timeStep = s.timeStep := rfl
@[simp] theorem State.modOrder_roomMap (id : OrderId) (f : Order → Order) : (s.modOrder id f).roomMap = s.roomMap := rfl
@[simp] theorem State.modOrder_classes (id : OrderId) (f : Order → Order) : (s.modOrder id f).classes = s.classes := rfl
@[simp] theorem State.modOrder_rooms (id : OrderId) (f : Order → Order) : (s.modOrder id f).rooms = s.rooms := rfl
@[simp] theorem State.modOrder_pool (id : OrderId) (f : Order → Order) : (s.modOrder id f).pool = s.pool := rfl
@[simp] theorem State.modOrder_evidence (id : OrderId) (f : Order → Order) : (s.modOrder id f).evidence = s.evidence := rfl
@[simp] theorem State.modOrder_orders (id : OrderId) (f : Order → Order) :
    (s.modOrder id f).orders = s.orders.map fun o => if o.id = id then f o else o := rfl
@[simp] theorem State.modOrder_pantries (id : OrderId) (f : Order → Order) : (s.modOrder id f).pantries = s.pantries := rfl
@[simp] theorem State.modOrder_lines (id : OrderId) (f : Order → Order) : (s.modOrder id f).lines = s.lines := rfl
@[simp] theorem State.modOrder_drops (id : OrderId) (f : Order → Order) : (s.modOrder id f).drops = s.drops := rfl
@[simp] theorem State.modOrder_latches (id : OrderId) (f : Order → Order) : (s.modOrder id f).latches = s.latches := rfl
@[simp] theorem State.modOrder_unsent (id : OrderId) (f : Order → Order) : (s.modOrder id f).unsent = s.unsent := rfl
@[simp] theorem State.modOrder_flushCount (id : OrderId) (f : Order → Order) : (s.modOrder id f).flushCount = s.flushCount := rfl
@[simp] theorem State.modOrder_discardCount (id : OrderId) (f : Order → Order) : (s.modOrder id f).discardCount = s.discardCount := rfl
@[simp] theorem State.modOrder_restart (id : OrderId) (f : Order → Order) : (s.modOrder id f).restart = s.restart := rfl
@[simp] theorem State.modOrder_boot (id : OrderId) (f : Order → Order) : (s.modOrder id f).boot = s.boot := rfl
@[simp] theorem State.modOrder_bootMem (id : OrderId) (f : Order → Order) : (s.modOrder id f).bootMem = s.bootMem := rfl

/-! ## pushLocal -/

@[simp] theorem State.pushLocal_pending (m : UpMsg) : (s.pushLocal m).pending = s.pending := rfl
@[simp] theorem State.pushLocal_due (m : UpMsg) : (s.pushLocal m).due = s.due := rfl
@[simp] theorem State.pushLocal_freeCount (m : UpMsg) : (s.pushLocal m).freeCount = s.freeCount := rfl
@[simp] theorem State.pushLocal_resetLow (m : UpMsg) : (s.pushLocal m).resetLow = s.resetLow := rfl
@[simp] theorem State.pushLocal_floor (m : UpMsg) : (s.pushLocal m).floor = s.floor := rfl
@[simp] theorem State.pushLocal_riser (m : UpMsg) :
    (s.pushLocal m).riser = { s.riser with localQueue := s.riser.localQueue ++ [m] } := rfl
@[simp] theorem State.pushLocal_clock (m : UpMsg) : (s.pushLocal m).clock = s.clock := rfl
@[simp] theorem State.pushLocal_timeStep (m : UpMsg) : (s.pushLocal m).timeStep = s.timeStep := rfl
@[simp] theorem State.pushLocal_roomMap (m : UpMsg) : (s.pushLocal m).roomMap = s.roomMap := rfl
@[simp] theorem State.pushLocal_classes (m : UpMsg) : (s.pushLocal m).classes = s.classes := rfl
@[simp] theorem State.pushLocal_rooms (m : UpMsg) : (s.pushLocal m).rooms = s.rooms := rfl
@[simp] theorem State.pushLocal_pool (m : UpMsg) : (s.pushLocal m).pool = s.pool := rfl
@[simp] theorem State.pushLocal_evidence (m : UpMsg) : (s.pushLocal m).evidence = s.evidence := rfl
@[simp] theorem State.pushLocal_orders (m : UpMsg) : (s.pushLocal m).orders = s.orders := rfl
@[simp] theorem State.pushLocal_pantries (m : UpMsg) : (s.pushLocal m).pantries = s.pantries := rfl
@[simp] theorem State.pushLocal_lines (m : UpMsg) : (s.pushLocal m).lines = s.lines := rfl
@[simp] theorem State.pushLocal_drops (m : UpMsg) : (s.pushLocal m).drops = s.drops := rfl
@[simp] theorem State.pushLocal_latches (m : UpMsg) : (s.pushLocal m).latches = s.latches := rfl
@[simp] theorem State.pushLocal_unsent (m : UpMsg) : (s.pushLocal m).unsent = s.unsent := rfl
@[simp] theorem State.pushLocal_flushCount (m : UpMsg) : (s.pushLocal m).flushCount = s.flushCount := rfl
@[simp] theorem State.pushLocal_discardCount (m : UpMsg) : (s.pushLocal m).discardCount = s.discardCount := rfl
@[simp] theorem State.pushLocal_restart (m : UpMsg) : (s.pushLocal m).restart = s.restart := rfl
@[simp] theorem State.pushLocal_boot (m : UpMsg) : (s.pushLocal m).boot = s.boot := rfl
@[simp] theorem State.pushLocal_bootMem (m : UpMsg) : (s.pushLocal m).bootMem = s.bootMem := rfl

/-! ## reply -/

@[simp] theorem State.reply_pending (k : MsgKind) (tag : Tag) (code : Code) (body : Body) : (s.reply k tag code body).pending = s.pending := rfl
@[simp] theorem State.reply_due (k : MsgKind) (tag : Tag) (code : Code) (body : Body) : (s.reply k tag code body).due = s.due := rfl
@[simp] theorem State.reply_freeCount (k : MsgKind) (tag : Tag) (code : Code) (body : Body) : (s.reply k tag code body).freeCount = s.freeCount := rfl
@[simp] theorem State.reply_resetLow (k : MsgKind) (tag : Tag) (code : Code) (body : Body) : (s.reply k tag code body).resetLow = s.resetLow := rfl
@[simp] theorem State.reply_floor (k : MsgKind) (tag : Tag) (code : Code) (body : Body) : (s.reply k tag code body).floor = s.floor := rfl
@[simp] theorem State.reply_riser (k : MsgKind) (tag : Tag) (code : Code) (body : Body) :
    (s.reply k tag code body).riser = { s.riser with
      reservations := s.riser.reservations.erase (k, tag)
      localQueue := s.riser.localQueue ++ [.reply s.floor.building s.floor.floor tag k code body] } := rfl
@[simp] theorem State.reply_clock (k : MsgKind) (tag : Tag) (code : Code) (body : Body) : (s.reply k tag code body).clock = s.clock := rfl
@[simp] theorem State.reply_timeStep (k : MsgKind) (tag : Tag) (code : Code) (body : Body) : (s.reply k tag code body).timeStep = s.timeStep := rfl
@[simp] theorem State.reply_roomMap (k : MsgKind) (tag : Tag) (code : Code) (body : Body) : (s.reply k tag code body).roomMap = s.roomMap := rfl
@[simp] theorem State.reply_classes (k : MsgKind) (tag : Tag) (code : Code) (body : Body) : (s.reply k tag code body).classes = s.classes := rfl
@[simp] theorem State.reply_rooms (k : MsgKind) (tag : Tag) (code : Code) (body : Body) : (s.reply k tag code body).rooms = s.rooms := rfl
@[simp] theorem State.reply_pool (k : MsgKind) (tag : Tag) (code : Code) (body : Body) : (s.reply k tag code body).pool = s.pool := rfl
@[simp] theorem State.reply_evidence (k : MsgKind) (tag : Tag) (code : Code) (body : Body) : (s.reply k tag code body).evidence = s.evidence := rfl
@[simp] theorem State.reply_orders (k : MsgKind) (tag : Tag) (code : Code) (body : Body) : (s.reply k tag code body).orders = s.orders := rfl
@[simp] theorem State.reply_pantries (k : MsgKind) (tag : Tag) (code : Code) (body : Body) : (s.reply k tag code body).pantries = s.pantries := rfl
@[simp] theorem State.reply_lines (k : MsgKind) (tag : Tag) (code : Code) (body : Body) : (s.reply k tag code body).lines = s.lines := rfl
@[simp] theorem State.reply_drops (k : MsgKind) (tag : Tag) (code : Code) (body : Body) : (s.reply k tag code body).drops = s.drops := rfl
@[simp] theorem State.reply_latches (k : MsgKind) (tag : Tag) (code : Code) (body : Body) : (s.reply k tag code body).latches = s.latches := rfl
@[simp] theorem State.reply_unsent (k : MsgKind) (tag : Tag) (code : Code) (body : Body) : (s.reply k tag code body).unsent = s.unsent := rfl
@[simp] theorem State.reply_flushCount (k : MsgKind) (tag : Tag) (code : Code) (body : Body) : (s.reply k tag code body).flushCount = s.flushCount := rfl
@[simp] theorem State.reply_discardCount (k : MsgKind) (tag : Tag) (code : Code) (body : Body) : (s.reply k tag code body).discardCount = s.discardCount := rfl
@[simp] theorem State.reply_restart (k : MsgKind) (tag : Tag) (code : Code) (body : Body) : (s.reply k tag code body).restart = s.restart := rfl
@[simp] theorem State.reply_boot (k : MsgKind) (tag : Tag) (code : Code) (body : Body) : (s.reply k tag code body).boot = s.boot := rfl
@[simp] theorem State.reply_bootMem (k : MsgKind) (tag : Tag) (code : Code) (body : Body) : (s.reply k tag code body).bootMem = s.bootMem := rfl

end Sys2Proof.Machine
end

