-- ==== Sys2Proof/Laws/Requests.lean ====
section
/-! SUPPORT. How a command runs and how a request is taken: what `run`, `serve` and `manage` can do, said once. -/

namespace Sys2Proof.Machine

variable {s : State}

/-! ## A command -/

/-- With no late grant to come first, the state is settled as it stands. -/
theorem State.settled_of_atRest (h : s.atRest) : s.settled = s := by simp [State.settled, h.2]

theorem commandEnd_next (h : s.resetLow = false) (t : State) : commandEnd s t = .next t.sent := by
  simp [commandEnd, h, State.sent]

theorem commandEnd_held (h : s.resetLow = true) (t : State) : commandEnd s t = .next s := by simp [commandEnd, h]

theorem run_next (h : s.atRest) (c : Instr) (f : State → State) : run c s f = .next (f (s.takeDue c)).sent := by
  simp only [run, State.settled_of_atRest h, commandEnd_next h.1]

/-- A late grant comes before the command (R174). -/
theorem run_settled (h : s.resetLow = false) (c : Instr) (f : State → State) :
    run c s f = .next (f (s.settled.takeDue c)).sent := commandEnd_next h _

/-- Every command but the resets and the port links ends in one way. -/
theorem exec_ends (c : Instr) (s : State) (h1 : c ≠ .powerOn) (h2 : c ≠ .resetInput) (h3 : c ≠ .resetInputHeldLow)
    (h4 : ∀ up, c ≠ .uplinkLinkChange up) (h5 : ∀ up, c ≠ .onwardLinkChange up) : ∃ t, exec c s = commandEnd s t := by
  cases c <;> first
    | exact absurd rfl h1 | exact absurd rfl h2 | exact absurd rfl h3 | exact absurd rfl (h4 _) | exact absurd rfl (h5 _)
    | (simp only [exec,
      execBootHeaderRead, execBootRecordRead, execBootMemoryTimeout, execUplinkArrival, execOnwardArrival,
      execRouteMessage, execUplinkTransmitEnd, execOnwardTransmitEnd, execOfflineTimerExpiry, execBook, execAlter,
      execWithdraw, execContentRoom, execContentDrop, execService, execTime, execTimeStepComplete,
      execLoadFloorRecord, execLoadRoomMap, execLoadRoomClass, execLoadRoomTable, execLoadDropTable,
      execLoadLineConfig, execLoadPantryConfig, execReadFloorRecord, execReadRoomMap, execReadRoomClass,
      execReadRoomTable, execReadPantryConfig, execReadReservation, execReadOrder, execReadEvidence, execReadDrop,
      execReadLine, execReadPantryLink, execReadRiserPort, execReadFloorClock, execReadEventLatch,
      execReadEventSummary, execReadBootStatus, execListDirty, execMarkClean, execLinePowerOn, execLinePowerOff,
      execLineBreak, execDropMode, execRoomClose, execRoomOpen, execPantryResync, execClear, execBootWrite,
      execBootPageWriteDone, execBootWriteAckTimeout, execBootReadbackDone, execRestart, execRestartTimeout,
      execClockSecond, execEvidenceTick, execTickReport, execSlotBoundary, execBookingSlotRun,
      execDispatcherSlotRun, execDayBoundary, execWithdrawNotice, execOrderOutcomeNotice, execKeyCheckIn,
      execKeyEnd, execKeyExtend, execWalkup, execSample, execEntry, execPantryStatus, execReplayTimerExpiry,
      execSettlingEnd, execBreakLowEnd, execBreakQuietEnd, execPowerFault, execWalkPhase, execDownFrameSent,
      execUpFrameReceived, execAnswerTimeout, execFrameEndTimeout, execAbandonedTurnEnd, execUpFrameFirstByte]
       exact ⟨_, rfl⟩)

/-! ## The reservation -/

@[simp] theorem State.reserve_loading (k : MsgKind) (tag : Tag) : (s.reserve k tag).loading = s.loading := by
  unfold State.reserve; split <;> rfl

@[simp] theorem State.reserve_restart (k : MsgKind) (tag : Tag) : (s.reserve k tag).restart = s.restart := by
  unfold State.reserve; split <;> rfl

/-- Taking a reservation changes the Riser Port's list of reservations and nothing else. -/
theorem State.reserve_eq (k : MsgKind) (tag : Tag) :
    s.reserve k tag = { s with
      riser := { s.riser with
        reservations := (if s.hasReservation k tag = true then s.riser.reservations
          else s.riser.reservations ++ [(k, tag)]) } } := by
  unfold State.reserve; split <;> rfl

@[simp] theorem State.takeDue_loading (c : Instr) : (s.takeDue c).loading = s.loading := rfl
@[simp] theorem State.takeDue_canReply (c : Instr) (k : MsgKind) (tag : Tag) :
    (s.takeDue c).canReply k tag = s.canReply k tag := rfl

/-- A taken request's state differs from the state before it in the work that is due and in the reservations alone. -/
theorem State.taken_eq (c : Instr) (k : MsgKind) (tag : Tag) :
    s.taken c k tag = { s with
      due := s.due.erase c
      riser := { s.riser with
        reservations := (if s.hasReservation k tag = true then s.riser.reservations
          else s.riser.reservations ++ [(k, tag)]) } } := by
  simp only [State.taken, State.reserve_eq]; rfl

/-! ## Reads of a taken request's state -/

section

variable (c : Instr) (k : MsgKind) (tag : Tag)

@[simp] theorem State.taken_pending : (s.taken c k tag).pending = s.pending := by rw [State.taken_eq]
@[simp] theorem State.taken_freeCount : (s.taken c k tag).freeCount = s.freeCount := by rw [State.taken_eq]
@[simp] theorem State.taken_resetLow : (s.taken c k tag).resetLow = s.resetLow := by rw [State.taken_eq]
@[simp] theorem State.taken_floor : (s.taken c k tag).floor = s.floor := by rw [State.taken_eq]
@[simp] theorem State.taken_clock : (s.taken c k tag).clock = s.clock := by rw [State.taken_eq]
@[simp] theorem State.taken_timeStep : (s.taken c k tag).timeStep = s.timeStep := by rw [State.taken_eq]
@[simp] theorem State.taken_roomMap : (s.taken c k tag).roomMap = s.roomMap := by rw [State.taken_eq]
@[simp] theorem State.taken_classes : (s.taken c k tag).classes = s.classes := by rw [State.taken_eq]
@[simp] theorem State.taken_rooms : (s.taken c k tag).rooms = s.rooms := by rw [State.taken_eq]
@[simp] theorem State.taken_pool : (s.taken c k tag).pool = s.pool := by rw [State.taken_eq]
@[simp] theorem State.taken_evidence : (s.taken c k tag).evidence = s.evidence := by rw [State.taken_eq]
@[simp] theorem State.taken_orders : (s.taken c k tag).orders = s.orders := by rw [State.taken_eq]
@[simp] theorem State.taken_pantries : (s.taken c k tag).pantries = s.pantries := by rw [State.taken_eq]
@[simp] theorem State.taken_lines : (s.taken c k tag).lines = s.lines := by rw [State.taken_eq]
@[simp] theorem State.taken_drops : (s.taken c k tag).drops = s.drops := by rw [State.taken_eq]
@[simp] theorem State.taken_latches : (s.taken c k tag).latches = s.latches := by rw [State.taken_eq]
@[simp] theorem State.taken_unsent : (s.taken c k tag).unsent = s.unsent := by rw [State.taken_eq]
@[simp] theorem State.taken_flushCount : (s.taken c k tag).flushCount = s.flushCount := by rw [State.taken_eq]
@[simp] theorem State.taken_discardCount : (s.taken c k tag).discardCount = s.discardCount := by rw [State.taken_eq]
@[simp] theorem State.taken_restart : (s.taken c k tag).restart = s.restart := by rw [State.taken_eq]
@[simp] theorem State.taken_boot : (s.taken c k tag).boot = s.boot := by rw [State.taken_eq]
@[simp] theorem State.taken_bootMem : (s.taken c k tag).bootMem = s.bootMem := by rw [State.taken_eq]
@[simp] theorem State.taken_due : (s.taken c k tag).due = s.due.erase c := by rw [State.taken_eq]
@[simp] theorem State.taken_room (r : Nat) : (s.taken c k tag).room r = s.room r := by rw [State.taken_eq]; rfl
@[simp] theorem State.taken_res (i : Nat) : (s.taken c k tag).res i = s.res i := by rw [State.taken_eq]; rfl
@[simp] theorem State.taken_ev (r : Nat) : (s.taken c k tag).ev r = s.ev r := by rw [State.taken_eq]; rfl
@[simp] theorem State.taken_pantry (p : Nat) : (s.taken c k tag).pantry p = s.pantry p := by rw [State.taken_eq]; rfl
@[simp] theorem State.taken_line (l : Nat) : (s.taken c k tag).line l = s.line l := by rw [State.taken_eq]; rfl
@[simp] theorem State.taken_latch (i : Nat) : (s.taken c k tag).latch i = s.latch i := by rw [State.taken_eq]; rfl
@[simp] theorem State.taken_drop (d : DropCode) : (s.taken c k tag).drop d = s.drop d := by rw [State.taken_eq]; rfl
@[simp] theorem State.taken_order (id : OrderId) : (s.taken c k tag).order id = s.order id := by rw [State.taken_eq]; rfl
@[simp] theorem State.taken_classOf (r : Nat) : (s.taken c k tag).classOf r = s.classOf r := by rw [State.taken_eq]; rfl
@[simp] theorem State.taken_curSlot : (s.taken c k tag).curSlot = s.curSlot := by rw [State.taken_eq]; rfl
@[simp] theorem State.taken_loading : (s.taken c k tag).loading = s.loading := by rw [State.taken_eq]; rfl
@[simp] theorem State.taken_orderDay (o : Order) : (s.taken c k tag).orderDay o = s.orderDay o := by rw [State.taken_eq]; rfl
@[simp] theorem State.taken_dayList (r : Nat) (d : Day) : (s.taken c k tag).dayList r d = s.dayList r d := by rw [State.taken_eq]; rfl
@[simp] theorem State.taken_startOf (i : Nat) : (s.taken c k tag).startOf i = s.startOf i := by rw [State.taken_eq]; rfl
@[simp] theorem State.taken_current (r : Nat) : (s.taken c k tag).current r = s.current r := by rw [State.taken_eq]; rfl
@[simp] theorem State.taken_todayRecords (r : Nat) : (s.taken c k tag).todayRecords r = s.todayRecords r := by rw [State.taken_eq]; rfl
@[simp] theorem State.taken_reached (j : Nat) : (s.taken c k tag).reached j = s.reached j := by rw [State.taken_eq]; rfl
@[simp] theorem State.taken_servingDrop (p : Nat) : (s.taken c k tag).servingDrop p = s.servingDrop p := by rw [State.taken_eq]; rfl
@[simp] theorem State.taken_servedPantry (d : DropCode) : (s.taken c k tag).servedPantry d = s.servedPantry d := by rw [State.taken_eq]; rfl
@[simp] theorem State.taken_boundPanels (r : Nat) : (s.taken c k tag).boundPanels r = s.boundPanels r := by rw [State.taken_eq]; rfl
@[simp] theorem State.taken_boundSensor (r : Nat) : (s.taken c k tag).boundSensor r = s.boundSensor r := by rw [State.taken_eq]; rfl
@[simp] theorem State.taken_conflict (r : Nat) (d : Day) (a b x : Nat) (e : Option Nat) : (s.taken c k tag).conflict r d a b x e = s.conflict r d a b x e := by rw [State.taken_eq]; rfl
@[simp] theorem State.taken_blocker (r : Nat) (d : Day) (a b x : Nat) (e : Option Nat) (n : Bool) : (s.taken c k tag).blocker r d a b x e n = s.blocker r d a b x e n := by rw [State.taken_eq]; rfl
@[simp] theorem State.taken_inTurnaround (r j : Nat) : (s.taken c k tag).inTurnaround r j = s.inTurnaround r j := by rw [State.taken_eq]; rfl
@[simp] theorem State.taken_isCandidate (i : Nat) : (s.taken c k tag).isCandidate i = s.isCandidate i := by rw [State.taken_eq]; rfl
@[simp] theorem State.taken_age (i : Nat) : (s.taken c k tag).age i = s.age i := by rw [State.taken_eq]; rfl
@[simp] theorem State.taken_closedNow : (s.taken c k tag).closedNow = s.closedNow := by rw [State.taken_eq]; rfl
@[simp] theorem State.taken_face (b : Option Nat) : (s.taken c k tag).face b = s.face b := by rw [State.taken_eq]; rfl
@[simp] theorem State.taken_turnOf (l : Nat) : (s.taken c k tag).turnOf l = s.turnOf l := by rw [State.taken_eq]; rfl

end

/-! ## Requests -/

/-- A request that can be taken is taken by its own rule. -/
theorem serve_accepts {k : MsgKind} {tag : Tag} (h : s.accepts k tag) (c : Instr) (act : State → State) :
    run c s (serve k tag c act) = .next (act (s.taken c k tag)).sent := by
  obtain ⟨h1, h2, h3⟩ := h
  simp [run_next h1, serve, h2, h3, State.taken]

/-- A request that finds neither its reservation nor a free entry waits and changes nothing else. -/
theorem serve_waits {k : MsgKind} {tag : Tag} (h1 : s.atRest) (h3 : s.canReply k tag = false) (c : Instr)
    (act : State → State) : run c s (serve k tag c act) = .next ((s.takeDue c).hand c).sent := by
  simp [run_next h1, serve, h3]

/-- A request of the Management Engine that is the next in routed order goes on to its form, to BUSY and to its rule. -/
theorem manage_eq {c : Instr} (h : s.inTurn c) (k : MsgKind) (tag : Tag) (formOk : Bool) (act : State → State) :
    manage k tag c s formOk act = serve k tag c fun t =>
      if !formOk then t.reply k tag .badMessage .none
      else if t.restart.isSome then t.reply k tag .busy .none
      else act t := by
  funext t
  simp only [manage, afterEarlier, show (s.ahead c).any isManaged = false from h, Bool.false_eq_true, if_false]

/-- A request of the Management Engine waits in its place while one that was routed before it is due. -/
theorem manage_waits {c : Instr} (h1 : s.atRest) (h : ¬ s.inTurn c) (k : MsgKind) (tag : Tag) (formOk : Bool)
    (act : State → State) : run c s (manage k tag c s formOk act) = .next (s.handOnce c).sent := by
  have h : (s.ahead c).any isManaged = true := by simpa [State.inTurn] using h
  simp [run_next h1, manage, afterEarlier, h]

/-- A request of the Management Engine that can be taken is taken by its own rule, when its form is right. -/
theorem manage_takes {c : Instr} {k : MsgKind} {tag : Tag} (h : s.manages c k tag) (act : State → State) {formOk : Bool}
    (hf : formOk = true) : run c s (manage k tag c s formOk act) = .next (act (s.taken c k tag)).sent := by
  rw [manage_eq h.2.2, serve_accepts h.1]; simp [hf, h.2.1]

/-- A request of the wrong form is answered BAD_MESSAGE. -/
theorem manage_badMessage {c : Instr} {k : MsgKind} {tag : Tag} (h : s.accepts k tag) (ht : s.inTurn c)
    (act : State → State) {formOk : Bool} (hf : formOk = false) :
    run c s (manage k tag c s formOk act) = .next (s.replies c k tag .badMessage .none) := by
  rw [manage_eq ht, serve_accepts h]; simp [hf, State.replies]

/-- A request of the Management Engine of the right form is answered BUSY while a RESTART waits. -/
theorem manage_busy {c : Instr} {k : MsgKind} {tag w : Tag} (h : s.accepts k tag) (ht : s.inTurn c)
    (hw : s.restart = some w) (act : State → State) {formOk : Bool} (hf : formOk = true) :
    run c s (manage k tag c s formOk act) = .next (s.replies c k tag .busy .none) := by
  rw [manage_eq ht, serve_accepts h]; simp [hf, hw, State.replies]

/-- Every request that the Management Engine takes is taken in one way, with its kind, its tag and its form. -/
theorem exec_of_managed {c : Instr} {k : MsgKind} {tag : Tag} {form : Bool} (h : managed c = some (k, tag, form))
    (s : State) : ∃ act, exec c s = run c s (manage k tag c s.settled form act) := by
  cases c <;> first
    | (simp only [managed, Option.some.injEq, Prod.mk.injEq] at h; obtain ⟨rfl, rfl, rfl⟩ := h; exact ⟨_, rfl⟩)
    | (simp only [managed, reduceCtorEq] at h)
  all_goals
    rename_i room _
    cases room
    · simp only [Option.some.injEq, Prod.mk.injEq] at h; obtain ⟨rfl, rfl, rfl⟩ := h; exact ⟨_, rfl⟩
    · simp only [reduceCtorEq] at h

theorem inRange_good (k : MsgKind) (tag : Tag) (act : State → State) : inRange k tag true act s = act s := rfl

theorem inRange_bad (k : MsgKind) (tag : Tag) (act : State → State) :
    inRange k tag false act s = s.reply k tag .badMessage .none := rfl

/-! ## Catch-ups and the order of boundaries -/

/-- Outside a catch-up the Booking Engine's work is taken at once. -/
theorem afterCatchUp_idle {t : State} (h : t.catchUp = false) (c again : Instr) (act : State → State) :
    afterCatchUp c again s act t = act t := by simp [afterCatchUp, h]

/-- During a catch-up the Booking Engine's work waits, and changes nothing else. -/
theorem afterCatchUp_waits {t : State} (h : t.catchUp = true) (c again : Instr) (act : State → State) :
    afterCatchUp c again s act t = { t with due := s.holdBack c again } := by simp [afterCatchUp, h]

/-- What is due ahead of a command, and what a command held back leaves due, by the place where the command stands. -/
theorem ahead_of_split {c : Instr} {before after : List Instr} (h : c ∉ before) (hd : s.due = before ++ c :: after) :
    s.ahead c = before := by
  have hb : ∀ x ∈ before, decide (x ≠ c) = true := fun x hx => by
    simp only [decide_eq_true_eq]; exact fun e => h (e ▸ hx)
  rw [State.ahead, hd, List.takeWhile_append_of_pos hb]
  simp

theorem holdBack_of_split {c : Instr} {before after : List Instr} (h : c ∉ before) (hd : s.due = before ++ c :: after)
    (again : Instr) :
    s.holdBack c again = before ++ after.filter (fun d => !waitsOut d) ++ again :: after.filter waitsOut := by
  have e : (before ++ c :: after).drop (before.length + 1) = after := by
    rw [← List.drop_drop, List.drop_left]; rfl
  simp only [State.holdBack, ahead_of_split h hd, hd, e]

theorem ahead_of_absent {c : Instr} (h : c ∉ s.due) : s.ahead c = s.due := by
  rw [State.ahead, List.takeWhile_eq_self_iff]
  intro x hx
  simp only [decide_eq_true_eq]; exact fun e => h (e ▸ hx)

theorem holdBack_of_absent {c : Instr} (h : c ∉ s.due) (again : Instr) : s.holdBack c again = s.due ++ [again] := by
  simp only [State.holdBack, ahead_of_absent h, List.drop_eq_nil_of_le (Nat.le_succ _), List.filter_nil,
    List.append_nil]

/-- What lies ahead of a command lay ahead of it before another command was taken. -/
theorem mem_ahead_erase {c d x : Instr} (hd : d ≠ c) {l : List Instr}
    (h : x ∈ (l.erase d).takeWhile fun e => decide (e ≠ c)) : x ∈ l.takeWhile fun e => decide (e ≠ c) := by
  induction l with
  | nil => simp at h
  | cons a l ih =>
    by_cases ha : a = d
    · subst ha
      rw [List.erase_cons_head] at h
      rw [List.takeWhile_cons_of_pos (by simpa using hd)]
      exact List.mem_cons_of_mem _ h
    · rw [List.erase_cons_tail (by simpa using ha)] at h
      by_cases hc : a = c
      · subst hc; simp at h
      · rw [List.takeWhile_cons_of_pos (by simpa using hc)] at h ⊢
        rcases List.mem_cons.mp h with h | h
        · exact h ▸ List.mem_cons_self
        · exact List.mem_cons_of_mem _ (ih h)

/-- Taking a command other than the completion of a TIME step begins no catch-up. -/
theorem catchUp_of_erase {t : State} {c : Instr} (hc : c ≠ .timeStepComplete) (hs : t.timeStep = s.timeStep)
    (hd : t.due = s.due.erase c) (h : s.catchUp = false) : t.catchUp = false := by
  simp only [State.catchUp, State.dayRaised, State.stepWork, State.ahead, hs, hd, Bool.or_eq_false_iff] at h ⊢
  constructor
  · have h1 := h.1
    split at h1
    · rename_i hsome
      simp only [hsome, if_true, List.any_eq_false] at h1 ⊢
      exact fun x hx => h1 x (mem_ahead_erase hc hx)
    · rename_i hnone
      simp [hnone]
  · have h2 := h.2
    simp only [List.any_eq_false] at h2 ⊢
    exact fun x hx => h2 x (List.mem_of_mem_erase hx)

/-- What lies ahead of a command and is not the command taken lies ahead of it still. -/
theorem mem_ahead_of_erase {c d x : Instr} (hx : x ≠ d) {l : List Instr}
    (h : x ∈ l.takeWhile fun e => decide (e ≠ c)) : x ∈ (l.erase d).takeWhile fun e => decide (e ≠ c) := by
  induction l with
  | nil => simp at h
  | cons a l ih =>
    by_cases hc : a = c
    · subst hc; simp at h
    · rw [List.takeWhile_cons_of_pos (by simpa using hc)] at h
      by_cases ha : a = d
      · subst ha
        rw [List.erase_cons_head]
        rcases List.mem_cons.mp h with h | h
        · exact absurd h hx
        · exact h
      · rw [List.erase_cons_tail (by simpa using ha), List.takeWhile_cons_of_pos (by simpa using hc)]
        rcases List.mem_cons.mp h with h | h
        · exact h ▸ List.mem_cons_self
        · exact List.mem_cons_of_mem _ (ih h)

/-- Work that a catch-up holds back is no boundary and no completion of a TIME step. -/
theorem not_boundary_of_waitsOut {c : Instr} (h : waitsOut c = true) :
    isBookingBoundary c = false ∧ isDayBoundary c = false ∧ c ≠ .timeStepComplete := by
  cases c <;> simp_all [waitsOut, isManaged, managed, isBookingBoundary, isDayBoundary]

/-- Taking work that a catch-up holds back neither begins nor ends one. -/
theorem catchUp_of_waitsOut {t : State} {c : Instr} (hc : waitsOut c = true) (hs : t.timeStep = s.timeStep)
    (hd : t.due = s.due.erase c) : t.catchUp = s.catchUp := by
  obtain ⟨h1, h2, h3⟩ := not_boundary_of_waitsOut hc
  cases h : s.catchUp
  · exact catchUp_of_erase h3 hs hd h
  · simp only [State.catchUp, State.dayRaised, State.stepWork, State.ahead, hs, hd, Bool.or_eq_true, List.any_eq_true] at h ⊢
    rcases h with ⟨x, hx, hb⟩ | ⟨x, hx, hb⟩
    · refine .inl ⟨x, ?_, hb⟩
      split at hx <;> rename_i hsome
      · rw [if_pos hsome]
        exact mem_ahead_of_erase (fun e => by rw [e, h1] at hb; exact Bool.noConfusion hb) hx
      · cases hx
    · exact .inr ⟨x, (List.mem_erase_of_ne fun e => by rw [e, h2] at hb; exact Bool.noConfusion hb).2 hx, hb⟩

theorem catchUp_takeDue {c : Instr} (hc : waitsOut c = true) : (s.takeDue c).catchUp = s.catchUp :=
  catchUp_of_waitsOut (s := s) hc rfl rfl

theorem catchUp_taken {c : Instr} {k : MsgKind} {tag : Tag} (hc : waitsOut c = true) :
    (s.taken c k tag).catchUp = s.catchUp :=
  catchUp_of_waitsOut hc (State.taken_timeStep c k tag) (State.taken_due c k tag)

/-- A boundary with no earlier one due ahead of it runs at once. -/
theorem afterEarlier_runs {earlier : Instr → Bool} {c : Instr} {t : State} (h : (s.ahead c).any earlier = false)
    (act : State → State) : afterEarlier earlier c s act t = act t := by
  simp only [afterEarlier, h, Bool.false_eq_true, if_false]

/-- A boundary with an earlier one due ahead of it waits in its place. -/
theorem afterEarlier_waits {earlier : Instr → Bool} {c : Instr} {t : State} (h : (s.ahead c).any earlier = true)
    (act : State → State) : afterEarlier earlier c s act t = s.handOnce c := by
  simp only [afterEarlier, h, if_true]

theorem putInPlace_absent {c : Instr} {work l : List Instr} (h : c ∉ l) : putInPlace c work l = l ++ work := by
  induction l with
  | nil => rfl
  | cons a l ih =>
    simp only [List.mem_cons, not_or] at h
    simp only [putInPlace, if_neg (Ne.symm h.1), ih h.2, List.cons_append]

theorem putInPlace_present {c : Instr} {work before after : List Instr} (h : c ∉ before) :
    putInPlace c work (before ++ c :: after) = before ++ work ++ after := by
  induction before with
  | nil => simp only [List.nil_append, putInPlace, if_true]
  | cons a l ih =>
    simp only [List.mem_cons, not_or] at h
    simp only [List.cons_append, putInPlace, if_neg (Ne.symm h.1), ih h.2]

end Sys2Proof.Machine
end

