-- ==== Sys2Proof/Laws/Tables.lean ====
section
/-! SUPPORT. The tables: what an entry reads as after a change of it and of another entry, and that a change of one table
leaves the entries of the others. -/

namespace Sys2Proof.Machine

/-! ## updAt -/

theorem updAt_get {α : Type} {n : Nat} (v : Vector α n) (i j : Nat) (f : α → α) :
    (updAt v i f)[j]? = if i = j then v[j]?.map f else v[j]? := by
  unfold updAt
  split <;> rename_i h
  · by_cases hj : i = j
    · subst hj
      have hi : i < n := by by_contra hc; simp [hc] at h
      simp only [h, Option.map_some]
      simp [hi]
    · simp [hj]
  · by_cases hj : i = j
    · subst hj; simp [h]
    · simp [hj]

@[simp] theorem updAt_same {α : Type} {n : Nat} (v : Vector α n) (i : Nat) (f : α → α) :
    (updAt v i f)[i]? = v[i]?.map f := by simp [updAt_get]

@[simp] theorem updAt_getElem {α : Type} {n : Nat} (v : Vector α n) {i : Nat} (h : i < n) (f : α → α) :
    (updAt v i f)[i] = f v[i] := by
  have := updAt_same v i f
  simpa only [Vector.getElem?_eq_getElem h, Option.map_some, Option.some.injEq] using this

theorem updAt_other {α : Type} {n : Nat} (v : Vector α n) {i j : Nat} (f : α → α) (h : j ≠ i) :
    (updAt v i f)[j]? = v[j]? := by simp [updAt_get, Ne.symm h]

/-- A change whose value at the entry is all that counts. -/
theorem updAt_congr {α : Type} {n : Nat} (v : Vector α n) (i : Nat) {f g : α → α}
    (h : ∀ a, v[i]? = some a → f a = g a) : updAt v i f = updAt v i g := by
  unfold updAt
  split <;> rename_i x hx
  · rw [h x hx]
  · rfl

theorem updAt_updAt {α : Type} {n : Nat} (v : Vector α n) (i : Nat) (f g : α → α) :
    updAt (updAt v i f) i g = updAt v i fun a => g (f a) := by
  ext j hj
  have := updAt_get (updAt v i f) i j g
  have h2 := updAt_get v i j f
  have h3 := updAt_get v i j fun a => g (f a)
  simp only [Vector.getElem?_eq_getElem hj] at this h2 h3
  rw [h2] at this
  split at this <;> simp_all

theorem updAt_id {α : Type} {n : Nat} (v : Vector α n) (i : Nat) {f : α → α} (h : ∀ a, v[i]? = some a → f a = a) :
    updAt v i f = v := by
  unfold updAt
  split <;> rename_i x hx
  · rw [h x hx]
    ext j hj
    by_cases hij : i = j
    · subst hij; simp_all
    · simp [hij]
  · rfl

variable {s : State}

/-! ## rooms -/

theorem State.room_modRoom_same {r : Nat} (h : r < 48) (f : RoomEntry → RoomEntry) : (s.modRoom r f).room r = f (s.room r) := by
  simp [State.room, State.modRoom, h]

theorem State.room_modRoom_other {r j : Nat} (h : j ≠ r) (f : RoomEntry → RoomEntry) : (s.modRoom r f).room j = s.room j := by
  simp [State.room, State.modRoom, updAt_other _ _ h]

theorem State.modRoom_congr {r : Nat} {f g : RoomEntry → RoomEntry} (h : f (s.room r) = g (s.room r)) :
    s.modRoom r f = s.modRoom r g := by
  unfold State.modRoom
  congr 1
  exact updAt_congr _ _ fun a ha => by simpa [State.room, ha] using h

theorem State.modRoom_id {r : Nat} {f : RoomEntry → RoomEntry} (h : f (s.room r) = s.room r) : s.modRoom r f = s := by
  unfold State.modRoom
  rw [updAt_id _ _ fun a ha => by simpa [State.room, ha] using h]

theorem State.modRoom_modRoom (r : Nat) (f g : RoomEntry → RoomEntry) :
    (s.modRoom r f).modRoom r g = s.modRoom r fun a => g (f a) := by
  simp [State.modRoom, updAt_updAt]

/-! ## evidence -/

theorem State.ev_modEv_same {r : Nat} (h : r < 48) (f : Evidence → Evidence) : (s.modEv r f).ev r = f (s.ev r) := by
  simp [State.ev, State.modEv, h]

theorem State.ev_modEv_other {r j : Nat} (h : j ≠ r) (f : Evidence → Evidence) : (s.modEv r f).ev j = s.ev j := by
  simp [State.ev, State.modEv, updAt_other _ _ h]

theorem State.modEv_congr {r : Nat} {f g : Evidence → Evidence} (h : f (s.ev r) = g (s.ev r)) :
    s.modEv r f = s.modEv r g := by
  unfold State.modEv
  congr 1
  exact updAt_congr _ _ fun a ha => by simpa [State.ev, ha] using h

theorem State.modEv_id {r : Nat} {f : Evidence → Evidence} (h : f (s.ev r) = s.ev r) : s.modEv r f = s := by
  unfold State.modEv
  rw [updAt_id _ _ fun a ha => by simpa [State.ev, ha] using h]

theorem State.modEv_modEv (r : Nat) (f g : Evidence → Evidence) :
    (s.modEv r f).modEv r g = s.modEv r fun a => g (f a) := by
  simp [State.modEv, updAt_updAt]

/-! ## pantries -/

theorem State.pantry_modPantry_same {p : Nat} (h : p < 8) (f : Pantry → Pantry) : (s.modPantry p f).pantry p = f (s.pantry p) := by
  simp [State.pantry, State.modPantry, h]

theorem State.pantry_modPantry_other {p j : Nat} (h : j ≠ p) (f : Pantry → Pantry) : (s.modPantry p f).pantry j = s.pantry j := by
  simp [State.pantry, State.modPantry, updAt_other _ _ h]

theorem State.modPantry_congr {p : Nat} {f g : Pantry → Pantry} (h : f (s.pantry p) = g (s.pantry p)) :
    s.modPantry p f = s.modPantry p g := by
  unfold State.modPantry
  congr 1
  exact updAt_congr _ _ fun a ha => by simpa [State.pantry, ha] using h

theorem State.modPantry_id {p : Nat} {f : Pantry → Pantry} (h : f (s.pantry p) = s.pantry p) : s.modPantry p f = s := by
  unfold State.modPantry
  rw [updAt_id _ _ fun a ha => by simpa [State.pantry, ha] using h]

theorem State.modPantry_modPantry (p : Nat) (f g : Pantry → Pantry) :
    (s.modPantry p f).modPantry p g = s.modPantry p fun a => g (f a) := by
  simp [State.modPantry, updAt_updAt]

/-! ## lines -/

theorem State.line_modLine_same {l : Nat} (h : l < 4) (f : Line → Line) : (s.modLine l f).line l = f (s.line l) := by
  simp [State.line, State.modLine, h]

theorem State.line_modLine_other {l j : Nat} (h : j ≠ l) (f : Line → Line) : (s.modLine l f).line j = s.line j := by
  simp [State.line, State.modLine, updAt_other _ _ h]

theorem State.modLine_congr {l : Nat} {f g : Line → Line} (h : f (s.line l) = g (s.line l)) :
    s.modLine l f = s.modLine l g := by
  unfold State.modLine
  congr 1
  exact updAt_congr _ _ fun a ha => by simpa [State.line, ha] using h

theorem State.modLine_id {l : Nat} {f : Line → Line} (h : f (s.line l) = s.line l) : s.modLine l f = s := by
  unfold State.modLine
  rw [updAt_id _ _ fun a ha => by simpa [State.line, ha] using h]

theorem State.modLine_modLine (l : Nat) (f g : Line → Line) :
    (s.modLine l f).modLine l g = s.modLine l fun a => g (f a) := by
  simp [State.modLine, updAt_updAt]

/-! ## drops -/

theorem State.dropAt_modDropAt_same {i : Nat} (h : i < 60) (f : Drop → Drop) : (s.modDropAt i f).dropAt i = f (s.dropAt i) := by
  simp [State.dropAt, State.modDropAt, h]

theorem State.dropAt_modDropAt_other {i j : Nat} (h : j ≠ i) (f : Drop → Drop) : (s.modDropAt i f).dropAt j = s.dropAt j := by
  simp [State.dropAt, State.modDropAt, updAt_other _ _ h]

theorem State.modDropAt_congr {i : Nat} {f g : Drop → Drop} (h : f (s.dropAt i) = g (s.dropAt i)) :
    s.modDropAt i f = s.modDropAt i g := by
  unfold State.modDropAt
  congr 1
  exact updAt_congr _ _ fun a ha => by simpa [State.dropAt, ha] using h

theorem State.modDropAt_id {i : Nat} {f : Drop → Drop} (h : f (s.dropAt i) = s.dropAt i) : s.modDropAt i f = s := by
  unfold State.modDropAt
  rw [updAt_id _ _ fun a ha => by simpa [State.dropAt, ha] using h]

theorem State.modDropAt_modDropAt (i : Nat) (f g : Drop → Drop) :
    (s.modDropAt i f).modDropAt i g = s.modDropAt i fun a => g (f a) := by
  simp [State.modDropAt, updAt_updAt]

/-! ## latches -/

theorem State.latch_modLatch_same {i : Nat} (h : i < 121) (f : Latch → Latch) : (s.modLatch i f).latch i = f (s.latch i) := by
  simp [State.latch, State.modLatch, h]

theorem State.latch_modLatch_other {i j : Nat} (h : j ≠ i) (f : Latch → Latch) : (s.modLatch i f).latch j = s.latch j := by
  simp [State.latch, State.modLatch, updAt_other _ _ h]

theorem State.modLatch_congr {i : Nat} {f g : Latch → Latch} (h : f (s.latch i) = g (s.latch i)) :
    s.modLatch i f = s.modLatch i g := by
  unfold State.modLatch
  congr 1
  exact updAt_congr _ _ fun a ha => by simpa [State.latch, ha] using h

theorem State.modLatch_id {i : Nat} {f : Latch → Latch} (h : f (s.latch i) = s.latch i) : s.modLatch i f = s := by
  unfold State.modLatch
  rw [updAt_id _ _ fun a ha => by simpa [State.latch, ha] using h]

theorem State.modLatch_modLatch (i : Nat) (f g : Latch → Latch) :
    (s.modLatch i f).modLatch i g = s.modLatch i fun a => g (f a) := by
  simp [State.modLatch, updAt_updAt]

/-! ## pool -/

theorem State.res_setRes_same {i : Nat} (h : i < 768) (r : Option Reservation) : (s.setRes i r).res i = r := by
  simp [State.res, State.setRes, h]

theorem State.res_setRes_other {i j : Nat} (h : j ≠ i) (r : Option Reservation) : (s.setRes i r).res j = s.res j := by
  simp [State.res, State.setRes, updAt_other _ _ h]

theorem State.res_modRes_same (i : Nat) (f : Reservation → Reservation) : (s.modRes i f).res i = (s.res i).map f := by
  unfold State.res State.modRes
  rw [updAt_same]
  cases s.pool[i]? <;> rfl

theorem State.res_modRes_other {i j : Nat} (h : j ≠ i) (f : Reservation → Reservation) :
    (s.modRes i f).res j = s.res j := by
  simp [State.res, State.modRes, updAt_other _ _ h]

/-- A record in use stands at an index of the pool. -/
theorem State.res_index {i : Nat} {r : Reservation} (h : s.res i = some r) : i < 768 := by
  by_contra hc
  simp [State.res, hc] at h

/-! ## drops by their codes -/

theorem dropIndex_lt {c : DropCode} (h : validDrop c = true) : dropIndex c < 60 := by
  simp only [validDrop, Bool.and_eq_true, decide_eq_true_eq] at h
  unfold dropIndex; omega

theorem dropIndex_inj {c d : DropCode} (hc : validDrop c = true) (hd : validDrop d = true) (h : dropIndex c = dropIndex d) :
    c = d := by
  obtain ⟨l, a⟩ := c
  obtain ⟨m, b⟩ := d
  simp only [validDrop, Bool.and_eq_true, decide_eq_true_eq] at hc hd
  simp only [dropIndex] at h
  have : l = m := by omega
  subst this
  have : a = b := by omega
  subst this
  rfl

theorem State.drop_modDrop_same {c : DropCode} (h : validDrop c = true) (f : Drop → Drop) :
    (s.modDrop c f).drop c = f (s.drop c) := by
  simp [State.drop, State.modDrop, h, State.dropAt_modDropAt_same (dropIndex_lt h)]

theorem State.drop_modDrop_other {c d : DropCode} (h : d ≠ c) (f : Drop → Drop) : (s.modDrop c f).drop d = s.drop d := by
  by_cases hd : validDrop d = true
  · by_cases hc : validDrop c = true
    · simp only [State.drop, State.modDrop, hd, hc, if_true]
      exact State.dropAt_modDropAt_other (fun e => h (dropIndex_inj hd hc e)) f
    · simp [State.modDrop, hc]
  · simp [State.drop, hd]

theorem State.modDrop_congr {c : DropCode} {f g : Drop → Drop} (h : f (s.drop c) = g (s.drop c)) :
    s.modDrop c f = s.modDrop c g := by
  unfold State.modDrop
  split <;> rename_i hc
  · exact State.modDropAt_congr (by simpa [State.drop, hc] using h)
  · rfl

theorem State.modDrop_id {c : DropCode} {f : Drop → Drop} (h : f (s.drop c) = s.drop c) : s.modDrop c f = s := by
  unfold State.modDrop
  split <;> rename_i hc
  · exact State.modDropAt_id (by simpa [State.drop, hc] using h)
  · rfl

theorem State.modDrop_modDrop (c : DropCode) (f g : Drop → Drop) :
    (s.modDrop c f).modDrop c g = s.modDrop c fun d => g (f d) := by
  unfold State.modDrop
  split
  · simp [State.modDropAt_modDropAt]
  · rfl

/-- A drop change touches the Drop Table alone. -/
theorem State.modDrop_frame (c : DropCode) (f : Drop → Drop) : s.modDrop c f = { s with drops := (s.modDrop c f).drops } := by
  unfold State.modDrop
  split <;> rfl

/-- The drop codes of the table are the valid ones. -/
theorem mem_allDrops {c : DropCode} : c ∈ allDrops ↔ validDrop c = true := by
  obtain ⟨l, a⟩ := c
  simp only [allDrops, List.mem_map, List.mem_range, dropCodeAt, DropCode.mk.injEq, validDrop, Bool.and_eq_true,
    decide_eq_true_eq]
  constructor
  · rintro ⟨i, hi, h1, h2⟩; omega
  · intro h; exact ⟨l * 15 + a - 1, by omega, by omega, by omega⟩

/-! ## displays -/

theorem State.drop_markRoom (r : Nat) (c : DropCode) :
    (s.markRoom r).drop c = if (s.drop c).room = some r then (s.drop c).marked else s.drop c := by
  unfold State.drop
  split <;> rename_i h
  · simp [State.dropAt, State.markRoom, dropIndex_lt h]
  · simp [Drop.reset]

theorem State.drop_markAll (c : DropCode) : (s.markAll).drop c = if validDrop c then (s.drop c).marked else s.drop c := by
  unfold State.drop
  split <;> rename_i h
  · simp [State.dropAt, State.markAll, dropIndex_lt h]
  · rfl

/-! ## orders -/

theorem State.order_id {id : OrderId} {o : Order} (h : s.order id = some o) : o.id = id := by
  simpa using List.find?_some h

/-- One order after a change of the order with an ID, by a change that keeps IDs. -/
theorem State.order_modOrder (id x : OrderId) (f : Order → Order) (hf : ∀ o, (f o).id = o.id) :
    (s.modOrder id f).order x = if x = id then (s.order x).map f else s.order x := by
  unfold State.order State.modOrder
  induction s.orders with
  | nil => simp
  | cons o os ih =>
    simp only [List.map_cons, List.find?_cons]
    by_cases ho : o.id = id
    · by_cases hx : x = id
      · simp [hf, hx, ho]
      · have e : ¬ id = x := Ne.symm hx
        simp only [ho, if_true, hf, e, decide_false]
        simpa [hx] using ih
    · by_cases hx : o.id = x
      · have : x ≠ id := fun e => ho (hx.trans e)
        simp [hx, this]
      · simpa [ho, hx] using ih

end Sys2Proof.Machine
end

