-- ==== Sys2Proof/Laws/Events.lean ====
section
/-! SUPPORT. The Event Unit: what placing and raising an event can do, said once for each operation. -/

namespace Sys2Proof.Machine

variable {s : State}

/-! ## What the event operations change -/

/-- Composing an EVENT changes the local transmit queue and the floor latch's counts. -/
theorem State.composeEvent_frame (i : Nat) : s.composeEvent i = { s with
    riser := (s.composeEvent i).riser, flushCount := (s.composeEvent i).flushCount
    discardCount := (s.composeEvent i).discardCount } := rfl

/-- Composing an EVENT adds one message at the tail of the local transmit queue and changes nothing else of the Riser
Port. -/
theorem State.composeEvent_riser (i : Nat) :
    ∃ m, (s.composeEvent i).riser = { s.riser with localQueue := s.riser.localQueue ++ [m] } := ⟨_, rfl⟩

/-- Placing an EVENT changes the Event Unit and the Riser Port alone. -/
theorem State.placeEvent_frame (i : Nat) : s.placeEvent i = { s with
    riser := (s.placeEvent i).riser, latches := (s.placeEvent i).latches, unsent := (s.placeEvent i).unsent
    flushCount := (s.placeEvent i).flushCount, discardCount := (s.placeEvent i).discardCount } := by
  unfold State.placeEvent
  split <;> rfl

/-- With a free entry an EVENT is composed at once; with none its latch joins the unsent list. -/
theorem State.placeEvent_cases (i : Nat) :
    (0 < s.freeEntries ∧ s.placeEvent i = s.composeEvent i) ∨
    (s.freeEntries = 0 ∧
      s.placeEvent i = { s.modLatch i (fun l => { l with unsent := true }) with unsent := s.unsent ++ [i] }) := by
  unfold State.placeEvent
  split
  · exact .inl ⟨‹_›, rfl⟩
  · exact .inr ⟨by omega, rfl⟩

theorem State.placeUnsent_frame : s.placeUnsent = { s with
    riser := s.placeUnsent.riser, latches := s.placeUnsent.latches, unsent := s.placeUnsent.unsent
    flushCount := s.placeUnsent.flushCount, discardCount := s.placeUnsent.discardCount } := by
  unfold State.placeUnsent
  split <;> rfl

/-- Raising a cause changes the Event Unit and the Riser Port alone. -/
theorem State.raise_frame (i : Nat) (c : Cause) : s.raise i c = { s with
    riser := (s.raise i c).riser, latches := (s.raise i c).latches, unsent := (s.raise i c).unsent
    flushCount := (s.raise i c).flushCount, discardCount := (s.raise i c).discardCount } := by
  unfold State.raise
  split
  · rfl
  · split
    · rfl
    · rw [State.placeEvent_frame]; rfl

theorem State.clearLatch_frame (i : Nat) : s.clearLatch i = { s with
    riser := (s.clearLatch i).riser, latches := (s.clearLatch i).latches, unsent := (s.clearLatch i).unsent
    flushCount := (s.clearLatch i).flushCount, discardCount := (s.clearLatch i).discardCount } := by
  unfold State.clearLatch
  simp only
  split
  · rfl
  · rw [State.placeEvent_frame]; rfl

/-! ## The latches -/

@[simp] theorem State.composeEvent_latches (i : Nat) : (s.composeEvent i).latches = s.latches := rfl
@[simp] theorem State.composeEvent_unsent (i : Nat) : (s.composeEvent i).unsent = s.unsent := rfl
@[simp] theorem State.composeEvent_latch (i j : Nat) : (s.composeEvent i).latch j = s.latch j := rfl

/-- A raised cause leaves every other latch. -/
theorem State.latch_raise_other {i j : Nat} (h : j ≠ i) (c : Cause) : (s.raise i c).latch j = s.latch j := by
  unfold State.raise
  split
  · rfl
  · split
    · exact State.latch_modLatch_other h _
    · rcases State.placeEvent_cases (s := s.modLatch i _) i with ⟨_, e⟩ | ⟨_, e⟩ <;> rw [e]
      · exact State.latch_modLatch_other h _
      · exact (State.latch_modLatch_other h _).trans (State.latch_modLatch_other h _)

/-- A latch is set once a cause is raised on it. -/
theorem State.latch_raise_isSet {i : Nat} (h : i < 121) (c : Cause) : ((s.raise i c).latch i).isSet = true := by
  unfold State.raise
  rw [if_neg (by unfold floorLatch; omega)]
  split <;> rename_i hs
  · rw [State.latch_modLatch_same h]; exact hs
  · rcases State.placeEvent_cases (s := s.modLatch i _) i with ⟨_, e⟩ | ⟨_, e⟩ <;> rw [e]
    · rw [State.composeEvent_latch, State.latch_modLatch_same h]
    · show ((State.modLatch _ i _).latch i).isSet = true
      rw [State.latch_modLatch_same h, State.latch_modLatch_same h]

/-! ## raise -/

@[simp] theorem State.raise_pending (i : Nat) (c : Cause) : (s.raise i c).pending = s.pending := by
  rw [State.raise_frame]
@[simp] theorem State.raise_due (i : Nat) (c : Cause) : (s.raise i c).due = s.due := by
  rw [State.raise_frame]
@[simp] theorem State.raise_freeCount (i : Nat) (c : Cause) : (s.raise i c).freeCount = s.freeCount := by
  rw [State.raise_frame]
@[simp] theorem State.raise_resetLow (i : Nat) (c : Cause) : (s.raise i c).resetLow = s.resetLow := by
  rw [State.raise_frame]
@[simp] theorem State.raise_floor (i : Nat) (c : Cause) : (s.raise i c).floor = s.floor := by
  rw [State.raise_frame]
@[simp] theorem State.raise_clock (i : Nat) (c : Cause) : (s.raise i c).clock = s.clock := by
  rw [State.raise_frame]
@[simp] theorem State.raise_timeStep (i : Nat) (c : Cause) : (s.raise i c).timeStep = s.timeStep := by
  rw [State.raise_frame]
@[simp] theorem State.raise_roomMap (i : Nat) (c : Cause) : (s.raise i c).roomMap = s.roomMap := by
  rw [State.raise_frame]
@[simp] theorem State.raise_classes (i : Nat) (c : Cause) : (s.raise i c).classes = s.classes := by
  rw [State.raise_frame]
@[simp] theorem State.raise_rooms (i : Nat) (c : Cause) : (s.raise i c).rooms = s.rooms := by
  rw [State.raise_frame]
@[simp] theorem State.raise_pool (i : Nat) (c : Cause) : (s.raise i c).pool = s.pool := by
  rw [State.raise_frame]
@[simp] theorem State.raise_evidence (i : Nat) (c : Cause) : (s.raise i c).evidence = s.evidence := by
  rw [State.raise_frame]
@[simp] theorem State.raise_orders (i : Nat) (c : Cause) : (s.raise i c).orders = s.orders := by
  rw [State.raise_frame]
@[simp] theorem State.raise_pantries (i : Nat) (c : Cause) : (s.raise i c).pantries = s.pantries := by
  rw [State.raise_frame]
@[simp] theorem State.raise_lines (i : Nat) (c : Cause) : (s.raise i c).lines = s.lines := by
  rw [State.raise_frame]
@[simp] theorem State.raise_drops (i : Nat) (c : Cause) : (s.raise i c).drops = s.drops := by
  rw [State.raise_frame]
@[simp] theorem State.raise_restart (i : Nat) (c : Cause) : (s.raise i c).restart = s.restart := by
  rw [State.raise_frame]
@[simp] theorem State.raise_boot (i : Nat) (c : Cause) : (s.raise i c).boot = s.boot := by
  rw [State.raise_frame]
@[simp] theorem State.raise_bootMem (i : Nat) (c : Cause) : (s.raise i c).bootMem = s.bootMem := by
  rw [State.raise_frame]

/-! ## placeEvent -/

@[simp] theorem State.placeEvent_pending (i : Nat) : (s.placeEvent i).pending = s.pending := by
  rw [State.placeEvent_frame]
@[simp] theorem State.placeEvent_due (i : Nat) : (s.placeEvent i).due = s.due := by
  rw [State.placeEvent_frame]
@[simp] theorem State.placeEvent_freeCount (i : Nat) : (s.placeEvent i).freeCount = s.freeCount := by
  rw [State.placeEvent_frame]
@[simp] theorem State.placeEvent_resetLow (i : Nat) : (s.placeEvent i).resetLow = s.resetLow := by
  rw [State.placeEvent_frame]
@[simp] theorem State.placeEvent_floor (i : Nat) : (s.placeEvent i).floor = s.floor := by
  rw [State.placeEvent_frame]
@[simp] theorem State.placeEvent_clock (i : Nat) : (s.placeEvent i).clock = s.clock := by
  rw [State.placeEvent_frame]
@[simp] theorem State.placeEvent_timeStep (i : Nat) : (s.placeEvent i).timeStep = s.timeStep := by
  rw [State.placeEvent_frame]
@[simp] theorem State.placeEvent_roomMap (i : Nat) : (s.placeEvent i).roomMap = s.roomMap := by
  rw [State.placeEvent_frame]
@[simp] theorem State.placeEvent_classes (i : Nat) : (s.placeEvent i).classes = s.classes := by
  rw [State.placeEvent_frame]
@[simp] theorem State.placeEvent_rooms (i : Nat) : (s.placeEvent i).rooms = s.rooms := by
  rw [State.placeEvent_frame]
@[simp] theorem State.placeEvent_pool (i : Nat) : (s.placeEvent i).pool = s.pool := by
  rw [State.placeEvent_frame]
@[simp] theorem State.placeEvent_evidence (i : Nat) : (s.placeEvent i).evidence = s.evidence := by
  rw [State.placeEvent_frame]
@[simp] theorem State.placeEvent_orders (i : Nat) : (s.placeEvent i).orders = s.orders := by
  rw [State.placeEvent_frame]
@[simp] theorem State.placeEvent_pantries (i : Nat) : (s.placeEvent i).pantries = s.pantries := by
  rw [State.placeEvent_frame]
@[simp] theorem State.placeEvent_lines (i : Nat) : (s.placeEvent i).lines = s.lines := by
  rw [State.placeEvent_frame]
@[simp] theorem State.placeEvent_drops (i : Nat) : (s.placeEvent i).drops = s.drops := by
  rw [State.placeEvent_frame]
@[simp] theorem State.placeEvent_restart (i : Nat) : (s.placeEvent i).restart = s.restart := by
  rw [State.placeEvent_frame]
@[simp] theorem State.placeEvent_boot (i : Nat) : (s.placeEvent i).boot = s.boot := by
  rw [State.placeEvent_frame]
@[simp] theorem State.placeEvent_bootMem (i : Nat) : (s.placeEvent i).bootMem = s.bootMem := by
  rw [State.placeEvent_frame]

/-- A raised cause adds at most one message at the tail of the local transmit queue. -/
theorem State.raise_riser (i : Nat) (c : Cause) :
    (s.raise i c).riser = s.riser ∨
    (0 < s.freeEntries ∧ ∃ m, (s.raise i c).riser = { s.riser with localQueue := s.riser.localQueue ++ [m] }) := by
  unfold State.raise
  split
  · exact .inl rfl
  · split
    · exact .inl rfl
    · rcases State.placeEvent_cases (s := s.modLatch i _) i with ⟨h, e⟩ | ⟨_, e⟩ <;> rw [e]
      · exact .inr ⟨h, _, rfl⟩
      · exact .inl rfl

end Sys2Proof.Machine
end

