-- ==== Sys2Proof/Laws/Riser.lean ====
section
/-! SUPPORT. The Riser Port's own work at the end of a command: what routing, the grant of a freed entry and the
transmitters can change, said once for each operation. -/

namespace Sys2Proof.Machine

variable {s t u : State}

/-! ## What the Riser Port's work can change -/

/-- The parts of the state that the Riser Port's own work can change: the work that is due, the port, the Event Unit, the
stale flags of room panels, and the number of the next free value. -/
def State.PortWork (s t : State) : Prop :=
  t = { s with
    due := t.due, freeCount := t.freeCount, riser := t.riser, drops := t.drops, latches := t.latches, unsent := t.unsent
    flushCount := t.flushCount, discardCount := t.discardCount } ∧
  ∀ c, t.drop c = s.drop c ∨ ((s.drop c).kind = .roomPanel ∧ t.drop c = { s.drop c with stale := true })

/-- Work that leaves the drops alone. -/
theorem State.PortWork.of_frame (h : t = { s with
    due := t.due, freeCount := t.freeCount, riser := t.riser, latches := t.latches, unsent := t.unsent
    flushCount := t.flushCount, discardCount := t.discardCount }) : s.PortWork t := by
  have hd : t.drops = s.drops := by rw [h]
  refine ⟨by rw [h], fun c => .inl ?_⟩
  unfold State.drop State.dropAt
  rw [hd]

theorem State.PortWork.same (s : State) : s.PortWork s := .of_frame rfl

theorem State.PortWork.trans (h : s.PortWork t) (k : t.PortWork u) : s.PortWork u := by
  refine ⟨by rw [k.1, h.1], fun c => ?_⟩
  rcases h.2 c with h1 | ⟨h1, h2⟩ <;> rcases k.2 c with k1 | ⟨k1, k2⟩
  · exact .inl (k1.trans h1)
  · exact .inr ⟨h1 ▸ k1, by rw [k2, h1]⟩
  · exact .inr ⟨h1, k1.trans h2⟩
  · exact .inr ⟨h1, by rw [k2, h2]⟩

theorem State.raise_portWork (i : Nat) (c : Cause) : s.PortWork (s.raise i c) :=
  .of_frame ((State.raise_frame i c).trans (by rw [State.raise_due, State.raise_freeCount]))

theorem State.placeUnsent_portWork : s.PortWork s.placeUnsent :=
  .of_frame (State.placeUnsent_frame.trans
    (by rw [show s.placeUnsent.due = s.due by unfold State.placeUnsent; split <;> rfl,
      show s.placeUnsent.freeCount = s.freeCount by unfold State.placeUnsent; split <;> rfl]))

theorem State.markAll_portWork : s.PortWork s.markAll := by
  refine ⟨rfl, fun c => ?_⟩
  rw [State.drop_markAll]
  split
  · unfold Drop.marked
    split
    · exact .inr ⟨‹_›, rfl⟩
    · exact .inl rfl
  · exact .inl rfl

theorem State.handOnce_portWork (c : Instr) : s.PortWork (s.handOnce c) := by
  unfold State.handOnce
  split
  · exact .same s
  · exact .of_frame rfl

theorem State.showTimer_portWork (d : Dest) : s.PortWork (s.showTimer d) := by
  unfold State.showTimer
  split
  · simp only
    split
    · exact .of_frame rfl
    · refine .trans (t := s.modRiser _) (.of_frame rfl) (.trans State.markAll_portWork (State.raise_portWork _ _))
  · exact .same s

theorem State.routeHead_portWork : s.PortWork s.routeHead := by
  unfold State.routeHead
  split
  · exact .of_frame rfl
  · rename_i raw rest _
    simp only
    refine .trans (t := s.modRiser fun r => { r with receive := rest, replyHeld := false }) (.of_frame rfl) ?_
    split
    · exact .same _
    · rename_i m _
      have h1 : ∀ v : State, v.PortWork (if (s.routeOf m).needsReply = true then v.addReservation m.kind m.tag else v) :=
        fun v => by split <;> exact .of_frame rfl
      have h2 : ∀ v : State, v.PortWork (if s.copies m = true then v.pushOnward raw else v) :=
        fun v => by split <;> exact .of_frame rfl
      have h3 : ∀ v : State, v.PortWork (match s.routeOf m with
          | .leave => v
          | .forward => v.pushOnward raw
          | .answer code => v.reply m.kind m.tag code .none
          | .take c => v.hand c) :=
        fun v => by split <;> exact .of_frame rfl
      exact (h1 _).trans ((State.showTimer_portWork _).trans ((h2 _).trans (h3 _)))

theorem State.afterRoute_portWork : s.PortWork s.afterRoute := by
  unfold State.afterRoute
  split
  · exact .same s
  · split
    · exact .of_frame rfl
    · exact State.handOnce_portWork _

theorem State.grant_portWork (n : Nat) : s.PortWork (State.grant n s) := by
  induction n generalizing s with
  | zero => exact .same s
  | succ n ih =>
    unfold State.grant
    simp only
    split
    · exact .same s
    · split
      · split
        · exact .trans State.routeHead_portWork (.trans (t := { s.routeHead with riser := _ }) (.of_frame rfl)
            State.afterRoute_portWork)
        · exact .trans State.routeHead_portWork ih
      · split
        · exact .trans State.placeUnsent_portWork (.trans (t := s.placeUnsent.modRiser _) (.of_frame rfl)
            State.afterRoute_portWork)
        · exact State.afterRoute_portWork

theorem State.entryFreed_portWork (late : Bool) : s.PortWork (s.entryFreed late) := by
  unfold State.entryFreed
  split
  · exact .of_frame rfl
  · exact State.grant_portWork 9

theorem State.settled_portWork : s.PortWork s.settled := by
  unfold State.settled
  split
  · exact .trans (t := s.unfreed) (.of_frame rfl) (State.grant_portWork 9)
  · exact .same s

theorem State.tryRoute_portWork : s.PortWork s.tryRoute := by
  unfold State.tryRoute
  split
  · exact .same s
  · split
    · exact .of_frame rfl
    · exact .trans State.routeHead_portWork State.afterRoute_portWork

theorem State.startUplink_portWork : s.PortWork s.startUplink := by
  unfold State.startUplink
  simp only
  split
  · exact .same s
  · split
    · split <;> exact .of_frame rfl
    · split
      · exact .of_frame rfl
      · split
        · refine .trans ?_ (State.entryFreed_portWork _)
          exact .of_frame rfl
        · exact .of_frame rfl

theorem State.startOnward_portWork : s.PortWork s.startOnward := by
  unfold State.startOnward
  split <;> exact .of_frame rfl

/-! ## A late grant -/

@[simp] theorem State.raise_freed (i : Nat) (c : Cause) : (s.raise i c).riser.freed = s.riser.freed := by
  rcases State.raise_riser (s := s) i c with h | ⟨_, m, h⟩ <;> rw [h]

@[simp] theorem State.placeUnsent_freed : s.placeUnsent.riser.freed = s.riser.freed := by
  unfold State.placeUnsent; split <;> rfl

@[simp] theorem State.pushOnward_freed (raw : Bytes) : (s.pushOnward raw).riser.freed = s.riser.freed := by
  unfold State.pushOnward State.modRiser; simp only; split <;> rfl

@[simp] theorem State.showTimer_freed (d : Dest) : (s.showTimer d).riser.freed = s.riser.freed := by
  unfold State.showTimer
  split
  · simp only
    split
    · rfl
    · rw [State.raise_freed]; rfl
  · rfl

@[simp] theorem State.routeHead_freed : s.routeHead.riser.freed = s.riser.freed := by
  unfold State.routeHead
  split
  · rfl
  · simp only
    split
    · rfl
    · split <;> repeat' split
      all_goals first
        | simp only [State.pushOnward_freed, State.showTimer_freed]; rfl
        | (show (State.showTimer _ _).riser.freed = _; rw [State.showTimer_freed]; rfl)
        | (show (State.pushOnward _ _).riser.freed = _; rw [State.pushOnward_freed, State.showTimer_freed]; rfl)

@[simp] theorem State.afterRoute_freed : s.afterRoute.riser.freed = s.riser.freed := by
  unfold State.afterRoute State.handOnce
  repeat' split
  all_goals rfl

@[simp] theorem State.grant_freed (n : Nat) : (State.grant n s).riser.freed = s.riser.freed := by
  induction n generalizing s with
  | zero => rfl
  | succ n ih =>
    unfold State.grant
    simp only
    split
    · rfl
    · split
      · split
        · rw [State.afterRoute_freed]; exact State.routeHead_freed
        · rw [ih, State.routeHead_freed]
      · split
        · rw [State.afterRoute_freed]; exact State.placeUnsent_freed
        · exact State.afterRoute_freed

/-- No grant is late once the late one has been taken. -/
theorem State.settled_freed : s.settled.riser.freed = false := by
  unfold State.settled
  split <;> rename_i h
  · exact State.grant_freed 9
  · simpa using h

theorem State.settled_resetLow : s.settled.resetLow = s.resetLow := by rw [State.settled_portWork.1]

theorem State.settled_settled : s.settled.settled = s.settled := by
  rw [State.settled, if_neg (by rw [State.settled_freed]; decide)]

/-- A command that runs on a state runs on it once its late grant has been taken. -/
theorem run_of_settled (h : s.resetLow = false) (c : Instr) (f : State → State) : run c s f = run c s.settled f := by
  simp only [run, State.settled_settled, commandEnd, h, State.settled_resetLow.trans h, Bool.false_eq_true, if_false]

/-! ## The capacities of the queues -/

/-- The queues of the Riser Port within their capacities (R168). -/
def Riser.Fits (r : Riser) : Prop :=
  r.receive.length ≤ 8 ∧ r.onwardQueue.length ≤ 16 ∧ r.upwardQueue.length ≤ 16 ∧
  r.used ≤ 32

/-- Work of the Riser Port that keeps the capacities and gives up no reservation. -/
def State.Keeps (s t : State) : Prop :=
  s.riser.Fits → t.riser.Fits ∧ ∀ x, s.riser.reservations.count x ≤ t.riser.reservations.count x

theorem State.Keeps.same (h : t.riser = s.riser) : s.Keeps t := fun f => by rw [h]; exact ⟨f, fun _ => Nat.le_refl _⟩

theorem State.Keeps.trans (h : s.Keeps t) (k : t.Keeps u) : s.Keeps u := fun f =>
  ⟨(k (h f).1).1, fun x => ((h f).2 x).trans ((k (h f).1).2 x)⟩

theorem Riser.Fits.push {r : Riser} (h : r.Fits) (hf : r.used < 32) (m : UpMsg) :
    Riser.Fits { r with localQueue := r.localQueue ++ [m] } := by
  obtain ⟨h1, h2, h3, h4⟩ := h
  refine ⟨h1, h2, h3, ?_⟩
  simp only [Riser.used, List.length_append, List.length_singleton] at *
  omega

theorem State.freeEntries_pos : 0 < s.freeEntries ↔ s.riser.used < 32 := by
  unfold State.freeEntries; omega

theorem State.raise_keeps (i : Nat) (c : Cause) : s.Keeps (s.raise i c) := fun f => by
  rcases State.raise_riser (s := s) i c with h | ⟨h1, m, h2⟩
  · exact State.Keeps.same h f
  · rw [h2]
    exact ⟨f.push (State.freeEntries_pos.1 h1) m, fun _ => Nat.le_refl _⟩

theorem State.composeEvent_keeps (h : 0 < s.freeEntries) (i : Nat) : s.Keeps (s.composeEvent i) := fun f =>
  ⟨f.push (State.freeEntries_pos.1 h) _, fun _ => Nat.le_refl _⟩

theorem State.placeEvent_keeps (i : Nat) : s.Keeps (s.placeEvent i) := by
  rcases State.placeEvent_cases (s := s) i with ⟨h, e⟩ | ⟨_, e⟩ <;> rw [e]
  · exact State.composeEvent_keeps h i
  · exact .same rfl

theorem State.placeUnsent_keeps (h : 0 < s.freeEntries) : s.Keeps s.placeUnsent := by
  unfold State.placeUnsent
  split
  · exact .same rfl
  · exact fun f => State.composeEvent_keeps (s := { s.modLatch _ _ with unsent := _ }) h _ f

theorem State.showTimer_keeps (d : Dest) : s.Keeps (s.showTimer d) := by
  unfold State.showTimer
  split
  · simp only
    split
    · exact fun f => ⟨f, fun _ => Nat.le_refl _⟩
    · exact State.Keeps.trans (t := (s.modRiser fun r =>
        { r with offlineTimer := some s.floor.offlineTimeout, offlineCuts := 0, online := true }).markAll)
        (fun f => ⟨f, fun _ => Nat.le_refl _⟩) (State.raise_keeps _ _)
  · exact .same rfl

theorem State.pushOnward_keeps (raw : Bytes) : s.Keeps (s.pushOnward raw) := fun f => by
  obtain ⟨h1, h2, h3, h4⟩ := f
  unfold State.pushOnward State.modRiser
  simp only
  split
  · exact ⟨⟨h1, by simp only [List.length_append, List.length_singleton]; omega, h3, h4⟩, fun _ => Nat.le_refl _⟩
  · exact ⟨⟨h1, h2, h3, h4⟩, fun _ => Nat.le_refl _⟩

/-- A reply whose reservation is held keeps the capacities; only that reservation is given up. -/
theorem State.reply_fits {k : MsgKind} {tag : Tag} (f : s.riser.Fits) (h : (k, tag) ∈ s.riser.reservations) (code : Code)
    (body : Body) : (s.reply k tag code body).riser.Fits := by
  obtain ⟨h1, h2, h3, h4⟩ := f
  refine ⟨h1, h2, h3, ?_⟩
  have := List.length_erase_of_mem h
  have := List.length_pos_of_mem h
  simp only [Riser.used, State.reply, State.modRiser, List.length_append, List.length_singleton] at *
  omega

theorem State.reply_count (k : MsgKind) (tag : Tag) (code : Code) (body : Body) (x : MsgKind × Tag) :
    (s.reply k tag code body).riser.reservations.count x =
      if x = (k, tag) then s.riser.reservations.count x - 1 else s.riser.reservations.count x := by
  simp only [State.reply, State.modRiser]
  by_cases h : x = (k, tag)
  · subst h; simp
  · rw [if_neg h, List.count_erase_of_ne h]

/-- A reply after its reservation has been added gives up no reservation held before. -/
theorem State.reply_after {k : MsgKind} {tag : Tag} {c : MsgKind × Tag → Nat} (f : s.riser.Fits)
    (h : ∀ x, c x + (if x = (k, tag) then 1 else 0) ≤ s.riser.reservations.count x) (code : Code) (body : Body) :
    (s.reply k tag code body).riser.Fits ∧ ∀ x, c x ≤ (s.reply k tag code body).riser.reservations.count x := by
  have h1 := h (k, tag)
  rw [if_pos rfl] at h1
  refine ⟨State.reply_fits f (List.count_pos_iff.1 (by omega)) _ _, fun x => ?_⟩
  have hx := h x
  rw [State.reply_count]
  split <;> rename_i e
  · rw [if_pos e] at hx; omega
  · rw [if_neg e] at hx; omega

/-- A message routed with an entry to be had for its reply. -/
theorem State.routeHead_keeps (h : s.headNeedsReply = true → 0 < s.freeEntries) : s.Keeps s.routeHead := by
  unfold State.routeHead
  split <;> rename_i hr
  · exact fun f => ⟨f, fun _ => Nat.le_refl _⟩
  · rename_i raw rest
    simp only
    have h0 : s.Keeps (s.modRiser fun r => { r with receive := rest, replyHeld := false }) := fun f => by
      obtain ⟨h1, h2, h3, h4⟩ := f
      exact ⟨⟨by rw [hr] at h1; simp only [List.length_cons] at h1; show rest.length ≤ 8; omega, h2, h3, h4⟩,
        fun _ => Nat.le_refl _⟩
    split
    · exact h0
    · rename_i m hm
      have hn : s.headNeedsReply = (s.routeOf m).needsReply := by
        unfold State.headNeedsReply State.head
        rw [hr]; simp only [hm]
      intro f
      obtain ⟨f0, c0⟩ := h0 f
      generalize hv : (s.modRiser fun r => { r with receive := rest, replyHeld := false }) = v at f0 c0 ⊢
      have hres : v.riser.reservations = s.riser.reservations := by rw [← hv]; rfl
      have hloc : v.riser.localQueue = s.riser.localQueue := by rw [← hv]; rfl
      have hfr : v.riser.freed = s.riser.freed := by rw [← hv]; rfl
      have h2 : ∀ v : State, v.Keeps (if s.copies m = true then v.pushOnward raw else v) :=
        fun v => by split <;> first | exact State.pushOnward_keeps raw | exact .same rfl
      cases ha : s.routeOf m with
      | leave =>
        have k := (State.showTimer_keeps (s := v) m.dest).trans (h2 _)
        exact ⟨(k f0).1, fun x => (c0 x).trans ((k f0).2 x)⟩
      | forward =>
        have k := ((State.showTimer_keeps (s := v) m.dest).trans (h2 _)).trans (State.pushOnward_keeps raw)
        exact ⟨(k f0).1, fun x => (c0 x).trans ((k f0).2 x)⟩
      | take c =>
        have hp := State.freeEntries_pos.1 (h (by rw [hn, ha]; rfl))
        have fv : (v.addReservation m.kind m.tag).riser.Fits := by
          obtain ⟨h1, h2, h3, h4⟩ := f0
          refine ⟨h1, h2, h3, ?_⟩
          simp only [Riser.used, State.addReservation, State.modRiser, List.length_append, List.length_singleton, hres,
            hloc, hfr] at hp ⊢
          omega
        have cv : ∀ x, v.riser.reservations.count x ≤ (v.addReservation m.kind m.tag).riser.reservations.count x := by
          intro x; simp [State.addReservation, State.modRiser, List.count_append]
        have k := ((State.showTimer_keeps (s := v.addReservation m.kind m.tag) m.dest).trans (h2 _)) fv
        exact ⟨k.1, fun x => (c0 x).trans ((cv x).trans (k.2 x))⟩
      | answer code =>
        have hp := State.freeEntries_pos.1 (h (by rw [hn, ha]; rfl))
        have fv : (v.addReservation m.kind m.tag).riser.Fits := by
          obtain ⟨h1, h2, h3, h4⟩ := f0
          refine ⟨h1, h2, h3, ?_⟩
          simp only [Riser.used, State.addReservation, State.modRiser, List.length_append, List.length_singleton, hres,
            hloc, hfr] at hp ⊢
          omega
        have cv : ∀ x, v.riser.reservations.count x + (if x = (m.kind, m.tag) then 1 else 0) ≤
            (v.addReservation m.kind m.tag).riser.reservations.count x := by
          intro x
          simp only [State.addReservation, State.modRiser, List.count_append]
          by_cases hx : x = (m.kind, m.tag)
          · subst hx; simp
          · simp [hx]
        have k := ((State.showTimer_keeps (s := v.addReservation m.kind m.tag) m.dest).trans (h2 _)) fv
        exact State.reply_after k.1 (c := fun x => s.riser.reservations.count x)
          (fun x => (Nat.add_le_add_right (c0 x) _).trans ((cv x).trans (k.2 x))) code .none

theorem State.afterRoute_keeps : s.Keeps s.afterRoute := by
  unfold State.afterRoute
  split
  · exact .same rfl
  · split
    · exact fun f => ⟨f, fun _ => Nat.le_refl _⟩
    · unfold State.handOnce; split <;> exact .same rfl

theorem State.grant_keeps (n : Nat) : s.Keeps (State.grant n s) := by
  induction n generalizing s with
  | zero => exact .same rfl
  | succ n ih =>
    unfold State.grant
    simp only
    split <;> rename_i h0
    · exact .same rfl
    · have hp : 0 < s.freeEntries := Nat.pos_of_ne_zero h0
      split
      · split
        · refine (State.routeHead_keeps fun _ => hp).trans (.trans ?_ State.afterRoute_keeps)
          exact fun f => ⟨f, fun _ => Nat.le_refl _⟩
        · exact (State.routeHead_keeps fun _ => hp).trans ih
      · split
        · exact (State.placeUnsent_keeps hp).trans
            (.trans (t := s.placeUnsent.modRiser fun r => { r with grantEvent := false })
              (fun f => ⟨f, fun _ => Nat.le_refl _⟩) State.afterRoute_keeps)
        · exact State.afterRoute_keeps

/-- An entry that becomes free leaves room for its grant, or for the mark of a late one. -/
theorem State.entryFreed_keeps (h : s.riser.used < 32) (late : Bool) : s.Keeps (s.entryFreed late) := by
  unfold State.entryFreed
  split <;> rename_i hl
  · intro f
    have hf : s.riser.freed = false := by
      simp only [Bool.and_eq_true, Bool.not_eq_true'] at hl
      exact hl.2
    refine ⟨⟨f.1, f.2.1, f.2.2.1, ?_⟩, fun _ => Nat.le_refl _⟩
    simp only [Riser.used, State.modRiser, hf, Bool.toNat_false, Bool.toNat_true] at h ⊢
    omega
  · exact State.grant_keeps 9

/-- The mark of a late grant given up. -/
theorem State.unfreed_keeps : s.Keeps s.unfreed := fun f => by
  refine ⟨⟨f.1, f.2.1, f.2.2.1, ?_⟩, fun _ => Nat.le_refl _⟩
  have := f.2.2.2
  simp only [Riser.used, State.unfreed, Bool.toNat_false] at this ⊢
  omega

theorem State.settled_keeps : s.Keeps s.settled := by
  unfold State.settled
  split
  · exact State.unfreed_keeps.trans (State.grant_keeps 9)
  · exact .same rfl

theorem State.tryRoute_keeps : s.Keeps s.tryRoute := by
  unfold State.tryRoute
  split
  · exact .same rfl
  · split <;> rename_i h
    · exact fun f => ⟨f, fun _ => Nat.le_refl _⟩
    · refine (State.routeHead_keeps fun hn => ?_).trans State.afterRoute_keeps
      simp only [State.headWaits, hn, Bool.true_or, Bool.true_and, decide_eq_true_eq] at h
      omega

theorem State.startOnward_keeps : s.Keeps s.startOnward := fun f => by
  unfold State.startOnward
  split
  · rename_i raw rest _ _ hq
    obtain ⟨h1, h2, h3, h4⟩ := f
    rw [hq] at h2
    simp only [List.length_cons] at h2
    exact ⟨⟨h1, (show rest.length ≤ 16 by omega), h3, h4⟩, fun _ => Nat.le_refl _⟩
  · exact ⟨f, fun _ => Nat.le_refl _⟩

theorem State.startUplink_keeps : s.Keeps s.startUplink := fun f => by
  have h0 := f
  obtain ⟨h1, h2, h3, h4⟩ := f
  unfold State.startUplink
  simp only
  split
  · exact ⟨h0, fun _ => Nat.le_refl _⟩
  · split
    · split <;> rename_i hq
      · exact ⟨h0, fun _ => Nat.le_refl _⟩
      · rename_i raw rest
        rw [hq] at h3
        simp only [List.length_cons] at h3
        exact ⟨⟨h1, h2, (show rest.length ≤ 16 by omega), h4⟩, fun _ => Nat.le_refl _⟩
    · split <;> rename_i hq
      · exact ⟨h0, fun _ => Nat.le_refl _⟩
      · rename_i m rest
        simp only [Riser.used, hq, List.length_cons] at h4
        have hf : ∀ t : State, t.riser.receive = s.riser.receive → t.riser.onwardQueue = s.riser.onwardQueue →
            t.riser.upwardQueue = s.riser.upwardQueue → t.riser.used < 32 → t.riser.Fits := fun t e1 e2 e3 e4 =>
          ⟨by rw [e1]; exact h1, by rw [e2]; exact h2, by rw [e3]; exact h3, Nat.le_of_lt e4⟩
        have hu : rest.length + s.riser.reservations.length + s.riser.freed.toNat < 32 := by omega
        split
        · refine State.entryFreed_keeps ?_ _ (hf _ rfl rfl rfl ?_)
          · exact hu
          · exact hu
        · exact ⟨hf _ rfl rfl rfl hu, fun _ => Nat.le_refl _⟩

end Sys2Proof.Machine
end

