-- ==== Sys2Proof/Laws/Steady.lean ====
section
/-! SUPPORT. What most operations keep: the work that owes a reply, the boot memory, the ranges of the clock and of the
evidence records, the capacities and reservations of the Riser Port, and the agreement of latches and unsent list. One
lemma for each shared operation; runs over rooms, records and orders follow from `State.Steady.foldl`. -/

namespace Sys2Proof.Machine

variable {s t u : State}

/-- A change that touches none of the state the invariants speak of, but for reservations and messages that the Riser Port
has room for and latches that stay in agreement. -/
structure State.Steady (s t : State) : Prop where
  timeStep : t.timeStep = s.timeStep
  write : t.boot.write = s.boot.write
  bootMem : t.bootMem = s.bootMem
  range : s.rangeInv → t.rangeInv
  keeps : s.Keeps t
  latch : s.latchInv → t.latchInv

namespace State.Steady

theorem same (s : State) : s.Steady s := ⟨rfl, rfl, rfl, id, .same rfl, id⟩

theorem trans (h : s.Steady t) (k : t.Steady u) : s.Steady u :=
  ⟨k.1.trans h.1, k.2.trans h.2, k.3.trans h.3, k.4 ∘ h.4, h.5.trans k.5, k.6 ∘ h.6⟩

/-- A change outside the state that the invariants speak of. -/
theorem of_eq (h1 : t.timeStep = s.timeStep) (h2 : t.boot.write = s.boot.write) (h3 : t.bootMem = s.bootMem)
    (h4 : t.clock = s.clock) (h5 : t.evidence = s.evidence) (h6 : t.riser = s.riser) (h7 : t.latches = s.latches)
    (h8 : t.unsent = s.unsent) : s.Steady t where
  timeStep := h1
  write := h2
  bootMem := h3
  range h := by
    unfold State.rangeInv State.ev at h ⊢
    rw [h4, h5]; exact h
  keeps := .same h6
  latch h := by
    unfold State.latchInv State.latch at h ⊢
    rw [h7, h8]; exact h

/-- A change that the Riser Port's queues and reservations do not see. -/
theorem of_riser (f : Riser → Riser) (h1 : ∀ r, (f r).receive = r.receive) (h2 : ∀ r, (f r).onwardQueue = r.onwardQueue)
    (h3 : ∀ r, (f r).upwardQueue = r.upwardQueue) (h4 : ∀ r, (f r).localQueue = r.localQueue)
    (h5 : ∀ r, (f r).reservations = r.reservations) (h6 : ∀ r, (f r).freed = r.freed) : s.Steady (s.modRiser f) where
  timeStep := rfl
  write := rfl
  bootMem := rfl
  range := id
  keeps h := by
    unfold Riser.Fits Riser.used State.modRiser at *
    simp only [h1, h2, h3, h4, h5, h6]
    exact ⟨h, fun _ => Nat.le_refl _⟩
  latch := id

theorem foldl {α : Type} {f : State → α → State} (h : ∀ (t : State) a, t.Steady (f t a)) (l : List α) (s : State) :
    s.Steady (l.foldl f s) := by
  induction l generalizing s with
  | nil => exact same s
  | cons a l ih => exact (h s a).trans (ih _)

theorem ite {p : Prop} [Decidable p] (h : s.Steady t) (k : s.Steady u) : s.Steady (if p then t else u) := by
  split
  · exact h
  · exact k

end State.Steady

open State (Steady)

/-! ## The latches -/

theorem latchInv_set {i : Nat} {l' : Latch} (h : s.latchInv) (hok : l'.ok) (hu : l'.unsent = (s.latch i).unsent)
    (ht : t.latch i = l') (ho : ∀ j, j ≠ i → t.latch j = s.latch j) (hs : t.unsent = s.unsent) : t.latchInv := by
  refine ⟨fun j => ?_, by rw [hs]; exact h.2.1, fun j => ?_⟩
  · by_cases hj : j = i
    · subst hj; rw [ht]; exact hok
    · rw [ho j hj]; exact h.1 j
  · rw [hs, h.2.2 j]
    by_cases hj : j = i
    · subst hj; rw [ht, hu]
    · rw [ho j hj]

/-- A latch that joins the unsent list. -/
theorem latchInv_join {i : Nat} {l' : Latch} (h : s.latchInv) (hok : l'.ok) (hu : l'.unsent = true)
    (hb : (s.latch i).unsent = false) (ht : t.latch i = l') (ho : ∀ j, j ≠ i → t.latch j = s.latch j)
    (hs : t.unsent = s.unsent ++ [i]) : t.latchInv := by
  have hn : i ∉ s.unsent := fun hi => by rw [(h.2.2 i).1 hi] at hb; exact Bool.noConfusion hb
  refine ⟨fun j => ?_, ?_, fun j => ?_⟩
  · by_cases hj : j = i
    · subst hj; rw [ht]; exact hok
    · rw [ho j hj]; exact h.1 j
  · rw [hs, List.nodup_append]
    exact ⟨h.2.1, by simp, fun a ha b hb => by
      simp only [List.mem_singleton] at hb; subst hb; exact fun e => hn (e ▸ ha)⟩
  · rw [hs]
    by_cases hj : j = i
    · subst hj; simp [ht, hu]
    · simp [ho j hj, hj, h.2.2 j]

theorem State.placeEvent_latchInv {i : Nat} {l' : Latch} (hi : i < 121) (h : s.latchInv) (hok : l'.ok) (hs : l'.isSet = true)
    (hu : l'.unsent = false) (hb : (s.latch i).unsent = false) :
    ((s.modLatch i fun _ => l').placeEvent i).latchInv := by
  rcases State.placeEvent_cases (s := s.modLatch i fun _ => l') i with ⟨_, e⟩ | ⟨_, e⟩ <;> rw [e]
  · exact latchInv_set h hok (by rw [hu, hb]) (i := i)
      (by rw [State.composeEvent_latch, State.latch_modLatch_same hi])
      (fun j hj => by rw [State.composeEvent_latch, State.latch_modLatch_other hj]) rfl
  · refine latchInv_join (l' := { l' with unsent := true }) h ?_ rfl hb (i := i) ?_ (fun j hj => ?_) rfl
    · exact ⟨hok.1, hok.2.1, fun e => by rw [hs] at e; exact Bool.noConfusion e⟩
    · show (State.modLatch _ i _).latch i = _
      rw [State.latch_modLatch_same hi, State.latch_modLatch_same hi]
    · show (State.modLatch _ i _).latch j = _
      rw [State.latch_modLatch_other hj, State.latch_modLatch_other hj]

theorem State.raise_latchInv (h : s.latchInv) (i : Nat) (c : Cause) : (s.raise i c).latchInv := by
  unfold State.raise
  split <;> rename_i hi
  · exact h
  · have hi : i < 121 := by unfold floorLatch at hi; omega
    split <;> rename_i hs
    · refine latchInv_set (i := i) h ?_ ?_ (State.latch_modLatch_same hi _)
        (fun j hj => State.latch_modLatch_other hj _) rfl
      · refine ⟨by simp only [satAdd]; omega, fun e => ?_, fun e => ?_⟩
        · simp only [satAdd] at e; omega
        · simp only at e; rw [hs] at e; exact Bool.noConfusion e
      · rfl
    · have hs : (s.latch i).isSet = false := by simpa using hs
      obtain ⟨h1, h2, h3, h4⟩ := (h.1 i).2.2 hs
      rw [State.modLatch_congr (g := fun _ => { s.latch i with
        isSet := true, causes := c.bit, pendingCount := 0, pendingCauses := 0, raiseCount := 1 }) rfl]
      exact State.placeEvent_latchInv hi h ⟨by simp, fun _ => rfl, fun e => Bool.noConfusion e⟩ rfl h4 h4

/-- What a CLEAR of a set latch whose EVENT is not unsent leaves. -/
theorem State.clearLatch_latchInv {i : Nat} (hi : i < 121) (h : s.latchInv) (hs : (s.latch i).isSet = true)
    (hu : (s.latch i).unsent = false) : (s.clearLatch i).latchInv := by
  unfold State.clearLatch
  simp only
  split <;> rename_i hp
  · refine latchInv_set (i := i) h ?_ ?_ (State.latch_modLatch_same hi _) (fun j hj => State.latch_modLatch_other hj _) rfl
    · exact ⟨(h.1 i).1, (h.1 i).2.1, fun _ => ⟨rfl, hp, (h.1 i).2.1 hp, hu⟩⟩
    · rfl
  · rw [State.modLatch_congr (g := fun _ => { s.latch i with
      causes := (s.latch i).pendingCauses, raiseCount := (s.latch i).pendingCount, pendingCount := 0
      pendingCauses := 0 }) rfl]
    exact State.placeEvent_latchInv hi h ⟨by simp, fun _ => rfl, fun e => by simp only at e; rw [hs] at e; exact Bool.noConfusion e⟩
      hs hu hu

theorem State.placeUnsent_latchInv (h : s.latchInv) : s.placeUnsent.latchInv := by
  unfold State.placeUnsent
  split <;> rename_i hq
  · exact h
  · rename_i i rest
    have hi : i < 121 := by
      by_contra hc
      have := (h.2.2 i).1 (by rw [hq]; simp)
      simp [State.latch, hc, Latch.reset] at this
    have hnd := h.2.1
    rw [hq, List.nodup_cons] at hnd
    refine ⟨fun j => ?_, hnd.2, fun j => ?_⟩
    · show (State.latch (s.modLatch i _) j).ok
      by_cases hj : j = i
      · subst hj
        rw [State.latch_modLatch_same hi]
        exact ⟨(h.1 j).1, (h.1 j).2.1, fun e => ⟨((h.1 j).2.2 e).1, ((h.1 j).2.2 e).2.1, ((h.1 j).2.2 e).2.2.1, rfl⟩⟩
      · rw [State.latch_modLatch_other hj]; exact h.1 j
    · show j ∈ rest ↔ (State.latch (s.modLatch i _) j).unsent = true
      by_cases hj : j = i
      · subst hj
        rw [State.latch_modLatch_same hi]
        simp [hnd.1]
      · rw [State.latch_modLatch_other hj, ← h.2.2 j, hq]
        simp [hj]

theorem State.raise_steady (i : Nat) (c : Cause) : s.Steady (s.raise i c) where
  timeStep := by simp
  write := by simp
  bootMem := by simp
  range h := by unfold State.rangeInv State.ev at h ⊢; simpa using h
  keeps := State.raise_keeps i c
  latch h := State.raise_latchInv h i c

/-- Work of the Riser Port that keeps the capacities and the latches is steady. -/
theorem State.PortWork.steady (h : s.PortWork t) (k : s.Keeps t) (l : s.latchInv → t.latchInv) : s.Steady t where
  timeStep := by rw [h.1]
  write := by rw [h.1]
  bootMem := by rw [h.1]
  range r := by rw [h.1]; exact r
  keeps := k
  latch := l

theorem latchInv_of_eq (h1 : t.latches = s.latches) (h2 : t.unsent = s.unsent) (h : s.latchInv) : t.latchInv := by
  unfold State.latchInv State.latch at *
  rw [h1, h2]; exact h

theorem State.markAll_steady : s.Steady s.markAll := .of_eq rfl rfl rfl rfl rfl rfl rfl rfl
theorem State.markRoom_steady (r : Nat) : s.Steady (s.markRoom r) := .of_eq rfl rfl rfl rfl rfl rfl rfl rfl

theorem State.handOnce_steady (c : Instr) : s.Steady (s.handOnce c) := by
  unfold State.handOnce
  exact .ite (.same s) (.of_eq rfl rfl rfl rfl rfl rfl rfl rfl)

theorem State.showTimer_latchInv (d : Dest) (h : s.latchInv) : (s.showTimer d).latchInv := by
  unfold State.showTimer
  split
  · simp only
    split
    · exact h
    · refine State.raise_latchInv ?_ _ _
      exact h
  · exact h

theorem State.routeHead_latchInv (h : s.latchInv) : s.routeHead.latchInv := by
  unfold State.routeHead
  split
  · exact h
  · rename_i raw rest _
    simp only
    split
    · exact h
    · rename_i m _
      have h1 : ∀ v : State, v.latchInv →
          (if (s.routeOf m).needsReply = true then v.addReservation m.kind m.tag else v).latchInv :=
        fun v hv => by split <;> exact hv
      have h2 : ∀ v : State, v.latchInv → (if s.copies m = true then v.pushOnward raw else v).latchInv :=
        fun v hv => by split <;> exact hv
      have h3 := h2 _ (State.showTimer_latchInv m.dest (h1 (s.modRiser fun r =>
        { r with receive := rest, replyHeld := false }) h))
      split <;> exact h3

theorem State.afterRoute_latchInv (h : s.latchInv) : s.afterRoute.latchInv := by
  unfold State.afterRoute State.handOnce
  split
  · exact h
  · split
    · exact h
    · split <;> exact h

theorem State.grant_latchInv (n : Nat) (h : s.latchInv) : (State.grant n s).latchInv := by
  induction n generalizing s with
  | zero => exact h
  | succ n ih =>
    unfold State.grant
    simp only
    split
    · exact h
    · split
      · split
        · exact State.afterRoute_latchInv (s := { s.routeHead with riser := _ }) (State.routeHead_latchInv h)
        · exact ih (State.routeHead_latchInv h)
      · split
        · exact State.afterRoute_latchInv (s := s.placeUnsent.modRiser _) (State.placeUnsent_latchInv h)
        · exact State.afterRoute_latchInv h

theorem State.tryRoute_latchInv (h : s.latchInv) : s.tryRoute.latchInv := by
  unfold State.tryRoute
  split
  · exact h
  · split
    · exact h
    · exact State.afterRoute_latchInv (State.routeHead_latchInv h)

theorem State.settled_latchInv (h : s.latchInv) : s.settled.latchInv := by
  unfold State.settled
  split
  · exact State.grant_latchInv (s := s.unfreed) 9 h
  · exact h

theorem State.entryFreed_latchInv (late : Bool) (h : s.latchInv) : (s.entryFreed late).latchInv := by
  unfold State.entryFreed
  split
  · exact h
  · exact State.grant_latchInv 9 h

theorem State.tryRoute_steady : s.Steady s.tryRoute :=
  State.tryRoute_portWork.steady State.tryRoute_keeps State.tryRoute_latchInv

theorem State.settled_steady : s.Steady s.settled :=
  State.settled_portWork.steady State.settled_keeps State.settled_latchInv

theorem State.showTimer_steady (d : Dest) : s.Steady (s.showTimer d) :=
  (State.showTimer_portWork d).steady (State.showTimer_keeps d) (State.showTimer_latchInv d)

/-! ## Tables -/

theorem State.hand_steady (c : Instr) : s.Steady (s.hand c) := .of_eq rfl rfl rfl rfl rfl rfl rfl rfl
theorem State.takeDue_steady (c : Instr) : s.Steady (s.takeDue c) := .of_eq rfl rfl rfl rfl rfl rfl rfl rfl
theorem State.handNotice_steady (c : Instr) : s.Steady (s.handNotice c) := .of_eq rfl rfl rfl rfl rfl rfl rfl rfl
theorem State.modRoom_steady (r : Nat) (f : RoomEntry → RoomEntry) : s.Steady (s.modRoom r f) :=
  .of_eq rfl rfl rfl rfl rfl rfl rfl rfl
theorem State.setRes_steady (i : Nat) (r : Option Reservation) : s.Steady (s.setRes i r) :=
  .of_eq rfl rfl rfl rfl rfl rfl rfl rfl
theorem State.modRes_steady (i : Nat) (f : Reservation → Reservation) : s.Steady (s.modRes i f) :=
  .of_eq rfl rfl rfl rfl rfl rfl rfl rfl
theorem State.modPantry_steady (p : Nat) (f : Pantry → Pantry) : s.Steady (s.modPantry p f) :=
  .of_eq rfl rfl rfl rfl rfl rfl rfl rfl
theorem State.modLine_steady (l : Nat) (f : Line → Line) : s.Steady (s.modLine l f) :=
  .of_eq rfl rfl rfl rfl rfl rfl rfl rfl
theorem State.modDrop_steady (c : DropCode) (f : Drop → Drop) : s.Steady (s.modDrop c f) := by
  unfold State.modDrop
  exact .ite (.of_eq rfl rfl rfl rfl rfl rfl rfl rfl) (.same s)
theorem State.modOrder_steady (id : OrderId) (f : Order → Order) : s.Steady (s.modOrder id f) :=
  .of_eq rfl rfl rfl rfl rfl rfl rfl rfl
theorem State.refreshSeqs_steady (p : Nat) : s.Steady (s.refreshSeqs p) := .of_eq rfl rfl rfl rfl rfl rfl rfl rfl
theorem State.freeOrders_steady (ids : List OrderId) : s.Steady (s.freeOrders ids) :=
  .of_eq rfl rfl rfl rfl rfl rfl rfl rfl
theorem State.modList_steady (r : Nat) (d : Day) (f : List Nat → List Nat) : s.Steady (s.modList r d f) :=
  .of_eq rfl rfl rfl rfl rfl rfl rfl rfl
theorem State.enterList_steady (r : Nat) (d : Day) (i k : Nat) : s.Steady (s.enterList r d i k) :=
  .of_eq rfl rfl rfl rfl rfl rfl rfl rfl

/-! ## The Reservation Store -/

theorem State.changeRes_steady (i : Nat) (f : Reservation → Reservation) : s.Steady (s.changeRes i f) := by
  unfold State.changeRes
  split
  · exact .same s
  · exact .ite (.trans (State.setRes_steady _ _) (State.markRoom_steady _)) (State.setRes_steady _ _)

theorem State.unlist_steady (i : Nat) (r : Reservation) : s.Steady (s.unlist i r) := by
  unfold State.unlist
  exact .ite (.trans (State.modList_steady _ _ _) (State.markRoom_steady _)) (State.modList_steady _ _ _)

theorem State.freeRecord_steady (i : Nat) : s.Steady (s.freeRecord i) := by
  unfold State.freeRecord
  split
  · exact (State.unlist_steady _ _).trans ((State.freeOrders_steady _).trans (State.setRes_steady _ _))
  · exact .same s

theorem State.create_steady (p : Place) (r : Reservation) : s.Steady (s.create p r) := by
  unfold State.create
  have h : s.Steady (match p.reclaim with | some i => s.freeRecord i | none => s) := by
    split
    · exact State.freeRecord_steady _
    · exact .same s
  refine .trans h ?_
  exact .ite (.trans (.trans (State.enterList_steady _ _ _ _) (State.setRes_steady _ _)) (State.markRoom_steady _))
    (.trans (State.enterList_steady _ _ _ _) (State.setRes_steady _ _))

theorem State.closeDone_steady (room : Nat) : s.Steady (s.closeDone room) := by
  unfold State.closeDone
  exact .ite ((State.modRoom_steady _ _).trans ((State.markRoom_steady _).trans (State.raise_steady _ _))) (.same s)

theorem State.finish_steady (i : Nat) (st : ResState) (why : EndReason) (at_ : ClosedAt) (d : Bool) (slot : Option Nat) :
    s.Steady (s.finish i st why at_ d slot) := by
  unfold State.finish
  split
  · exact .same s
  · simp only
    rename_i r _
    have h : ∀ v : State, v.Steady (if r.state = .inUse then v.closeDone r.room else v) :=
      fun v => .ite (State.closeDone_steady _) (.same v)
    have k : ∀ v : State, v.Steady (if (st = .released ∨ st = .cancelled) ∧ r.orders ≠ [] then
        match slot with
        | some _ => v.handNotice (.withdrawNotice i slot)
        | none => v.hand (.withdrawNotice i none)
      else v) := fun v => by
      split
      · split
        · exact State.handNotice_steady _
        · exact State.hand_steady _
      · exact .same _
    exact Steady.trans (Steady.trans (State.changeRes_steady i _) (h _)) (k _)

/-! ## Orders -/

theorem State.leaveDispatch_steady (o : Order) : s.Steady (s.leaveDispatch o) := State.modPantry_steady _ _
theorem State.leaveCancels_steady (o : Order) : s.Steady (s.leaveCancels o) :=
  (State.modPantry_steady _ _).trans (State.modOrder_steady _ _)
theorem State.enqueue_steady (o : Order) : s.Steady (s.enqueue o) :=
  (State.modOrder_steady _ _).trans (State.modPantry_steady _ _)

theorem State.testWindow_steady (j : Nat) (id : OrderId) : s.Steady (s.testWindow j id) := by
  unfold State.testWindow
  split
  · exact .ite (State.enqueue_steady _) (.same s)
  · exact .same s

theorem State.testNow_steady (id : OrderId) : s.Steady (s.testNow id) := by
  unfold State.testNow
  split
  · exact State.testWindow_steady _ _
  · exact .same s

theorem State.linkDown_steady (p : Nat) : s.Steady (s.linkDown p) := State.modPantry_steady _ _
theorem State.linkRise_steady (p : Nat) : s.Steady (s.linkRise p) := State.modPantry_steady _ _

theorem State.failLink_steady (p : Nat) : s.Steady (s.failLink p) := by
  unfold State.failLink
  refine Steady.trans ?_ (.foldl (fun _ _ => State.hand_steady _) _ _)
  exact .of_eq rfl rfl rfl rfl rfl rfl rfl rfl

theorem State.linkFault_steady (p : Nat) : s.Steady (s.linkFault p) :=
  (State.modPantry_steady _ _).trans ((State.failLink_steady p).trans (State.raise_steady _ _))

theorem State.startReplay_steady (p pos : Nat) (b : Bool) : s.Steady (s.startReplay p pos b) := by
  unfold State.startReplay
  exact (State.modPantry_steady _ _).trans (.ite (State.linkFault_steady _) (State.modPantry_steady _ _))

theorem State.withdrawOrder_steady (j : Nat) (id : OrderId) : s.Steady (State.withdrawOrder j s id) := by
  unfold State.withdrawOrder
  split
  · exact .same s
  · simp only
    split
    · exact State.modOrder_steady _ _
    · exact (State.leaveDispatch_steady _).trans (State.modOrder_steady _ _)
    · exact .ite (.ite (.same s) ((State.modOrder_steady _ _).trans (State.modPantry_steady _ _)))
        (State.modOrder_steady _ _)
    · exact .ite (.ite (.same s) ((State.modOrder_steady _ _).trans (State.modPantry_steady _ _)))
        (State.modOrder_steady _ _)
    · exact State.modOrder_steady _ _
    · exact .same s

/-! ## Boundaries -/

theorem State.eachToday_steady {f : State → Nat → State} (h : ∀ (t : State) i, t.Steady (f t i)) : s.Steady (s.eachToday f) :=
  .foldl (fun t _ => .foldl h _ t) _ s

theorem State.endAt_steady (day k i : Nat) : s.Steady (State.endAt day k s i) := by
  unfold State.endAt
  split
  · split
    · split
      · exact State.finish_steady ..
      · exact State.finish_steady ..
      · exact .same s
    · exact .same s
  · exact .same s

theorem State.judgeAt_steady (day k i : Nat) : s.Steady (State.judgeAt day k s i) := by
  unfold State.judgeAt
  split
  · simp only
    split
    · split
      · exact State.finish_steady ..
      · exact State.finish_steady ..
      · exact .ite (State.changeRes_steady _ _) (.same s)
      · exact .same s
    · exact .same s
  · exact .same s

theorem State.startAt_steady (day k i : Nat) : s.Steady (State.startAt day k s i) := by
  unfold State.startAt
  split
  · split
    · split
      · exact State.finish_steady ..
      · exact .ite (State.changeRes_steady _ _) (State.changeRes_steady _ _)
    · exact .same s
  · exact .same s

theorem State.bookingBoundary_steady (day k : Nat) : s.Steady (s.bookingBoundary day k) :=
  (State.eachToday_steady fun _ _ => State.endAt_steady ..).trans
    ((State.eachToday_steady fun _ _ => State.judgeAt_steady ..).trans
      (State.eachToday_steady fun _ _ => State.startAt_steady ..))

theorem State.dispatcherBoundary_steady (k : Nat) : s.Steady (s.dispatcherBoundary k) :=
  .foldl (fun _ _ => State.testWindow_steady _ _) _ s

theorem State.raiseDiscarded_steady (n : Nat) : s.Steady (s.raiseDiscarded n) := by
  unfold State.raiseDiscarded
  refine .ite (.same s) (Steady.trans ?_ (State.raise_steady _ _))
  exact .of_eq rfl rfl rfl rfl rfl rfl rfl rfl

theorem State.raiseDayFlush_steady (n : Nat) : s.Steady (s.raiseDayFlush n) := by
  unfold State.raiseDayFlush
  refine Steady.trans ?_ (State.raise_steady _ _)
  exact .of_eq rfl rfl rfl rfl rfl rfl rfl rfl

theorem State.retireOrder_steady (id : OrderId) : s.Steady (s.retireOrder id) := by
  unfold State.retireOrder
  split
  · split
    · exact State.modOrder_steady _ _
    · exact (State.leaveDispatch_steady _).trans (State.modOrder_steady _ _)
    · exact State.modOrder_steady _ _
    · exact .same s
  · exact .same s

theorem State.retire_steady (i : Nat) : s.Steady (s.retire i) := by
  unfold State.retire
  split
  · exact .same s
  · rename_i r _
    refine Steady.trans (t := r.orders.foldl State.retireOrder s)
      (.foldl (fun _ _ => State.retireOrder_steady _) _ s) ?_
    exact .ite (State.freeRecord_steady _) ((State.unlist_steady _ _).trans (State.setRes_steady _ _))

theorem State.promote_steady (room : Nat) : s.Steady (s.promote room) := by
  unfold State.promote
  have h : ∀ (t : State) (i : Nat), t.Steady (match t.res i with
      | some r => t.setRes i (some { r with day := .today, version := r.version + 1 })
      | none => t) := fun t i => by
    split
    · exact State.setRes_steady _ _
    · exact .same t
  exact (State.modRoom_steady _ _).trans (.foldl h _ _)

theorem State.rollPast_steady : s.Steady s.rollPast := by
  unfold State.rollPast
  refine Steady.trans (Steady.trans ?_ (Steady.foldl (fun _ _ => State.freeRecord_steady _) _ _))
    (State.raiseDiscarded_steady _)
  exact .of_eq rfl rfl rfl rfl rfl rfl rfl rfl

theorem State.rollover_steady : s.Steady s.rollover :=
  State.rollPast_steady.trans (.trans (Steady.foldl (f := fun t room => ((t.room room).today).foldl State.retire t)
    (fun t _ => .foldl (fun _ _ => State.retire_steady _) _ t) allRooms _)
    (.trans (Steady.foldl (fun _ _ => State.promote_steady _) allRooms _) State.markAll_steady))

theorem State.dayFlush_steady : s.Steady s.dayFlush := by
  unfold State.dayFlush
  refine Steady.trans (Steady.trans ?_ (Steady.foldl (fun _ _ => State.closeDone_steady _) allRooms _))
    (State.markAll_steady.trans (State.raiseDayFlush_steady _))
  exact .of_eq rfl rfl rfl rfl rfl rfl rfl rfl

theorem State.dayParts_steady (d : Nat) : s.Steady (s.dayParts d) :=
  (State.bookingBoundary_steady _ _).trans ((State.dispatcherBoundary_steady _).trans (State.rollover_steady.trans
    ((State.bookingBoundary_steady _ _).trans ((State.dispatcherBoundary_steady _).trans State.markAll_steady))))

/-! ## The transmitters -/

theorem State.startUplink_steady : s.Steady s.startUplink :=
  State.startUplink_portWork.steady State.startUplink_keeps fun h => by
    unfold State.startUplink; simp only; repeat' split
    all_goals first | exact h | exact State.entryFreed_latchInv _ h

theorem State.startOnward_steady : s.Steady s.startOnward :=
  State.startOnward_portWork.steady State.startOnward_keeps fun h => by
    unfold State.startOnward; split <;> exact h

theorem State.sent_steady : s.Steady s.sent := State.startUplink_steady.trans State.startOnward_steady

end Sys2Proof.Machine
end

