-- ==== Sys2Proof/Laws/Blocks.lean ====
section
/-! SUPPORT. What the operations of the Booking Engine, the Drop Manager, the Catering Dispatcher, the Line Controllers and
the LOADs keep, in the terms of Laws/Steady.lean. -/

namespace Sys2Proof.Machine

variable {s t u : State}

open State (Steady)

/-! ## Booking requests -/

theorem State.makeBooking_steady (room : Nat) (day : Day) (b : BookReq) (p : Place) :
    s.Steady (s.makeBooking room day b p) := by
  have h : ∀ v : State, v.Steady { v with orders := v.orders ++ b.orders.map (s.newOrder day p.index) } :=
    fun v => .of_eq rfl rfl rfl rfl rfl rfl rfl rfl
  exact (State.create_steady p _).trans ((h _).trans
    (Steady.foldl (f := fun (t : State) (o : OrderReq) => t.testNow o.id) (fun _ _ => State.testNow_steady _) _ _))

theorem State.moveOrder_steady (day : Day) (old new : Nat) (id : OrderId) : s.Steady (s.moveOrder day old new id) := by
  unfold State.moveOrder
  split
  · exact .ite ((State.modOrder_steady _ _).trans (State.testNow_steady _)) (.same s)
  · exact .same s

theorem State.applyAlter_steady (i : Nat) (r : Reservation) (w : Nat × Nat) : s.Steady (s.applyAlter i r w) := by
  unfold State.applyAlter
  simp only
  split
  · exact .same s
  · split
    · exact (State.changeRes_steady _ _).trans ((State.modList_steady _ _ _).trans ((State.enterList_steady _ _ _ _).trans
        (.foldl (fun _ _ => State.moveOrder_steady _ _ _ _) _ _)))
    · exact State.changeRes_steady _ _

theorem State.setService_steady (room : Nat) (x : Service) : s.Steady (s.setService room x) :=
  (State.modRoom_steady _ _).trans (State.markRoom_steady _)

theorem State.closeRoom_steady (room : Nat) : s.Steady (s.closeRoom room) := by
  unfold State.closeRoom
  split
  · exact .same s
  · split
    · exact .ite ((State.finish_steady ..).trans ((State.setService_steady _ _).trans (State.raise_steady _ _)))
        (State.setService_steady _ _)
    · exact (State.setService_steady _ _).trans (State.raise_steady _ _)

/-! ## Panel requests -/

theorem State.placeAnswer_steady (c : DropCode) (a : Answer) : s.Steady (s.placeAnswer c a) := State.modDrop_steady _ _

theorem State.judgeCheckIn_steady (room : Nat) : s.Steady (s.judgeCheckIn room).1 := by
  unfold State.judgeCheckIn State.refuse
  repeat' split
  all_goals first | exact .same s | exact State.changeRes_steady _ _

theorem State.judgeEnd_steady (room : Nat) : s.Steady (s.judgeEnd room).1 := by
  unfold State.judgeEnd State.refuse
  simp only
  repeat' split
  all_goals first
    | exact .same s
    | exact (State.changeRes_steady _ _).trans (State.closeDone_steady _)
    | exact .of_eq rfl rfl rfl rfl rfl rfl rfl rfl

theorem State.judgeExtend_steady (room : Nat) : s.Steady (s.judgeExtend room).1 := by
  unfold State.judgeExtend State.refuse
  repeat' split
  all_goals first | exact .same s | exact State.changeRes_steady _ _

theorem State.judgeWalkup_steady (n room : Nat) : s.Steady (State.judgeWalkup n s room).1 := by
  unfold State.judgeWalkup State.refuse
  simp only
  repeat' split
  all_goals first
    | exact .same s
    | (dsimp only; exact State.create_steady _ _)

theorem State.panelRequest_steady (c : Instr) (src : FrameFrom) (again : Nat → Instr) (q : PanelRequest)
    (judge : State → Nat → Judged) (h : ∀ (t : State) room, t.Steady (judge t room).1) (t : State) :
    t.Steady (s.panelRequest c src again q judge t) := by
  unfold State.panelRequest afterCatchUp
  split
  · exact .same t
  · exact .ite (.of_eq rfl rfl rfl rfl rfl rfl rfl rfl) ((h _ _).trans (State.placeAnswer_steady _ _))

/-! ## The tick report -/

theorem State.reportRoom_steady (room : Nat) (e : ReportEntry) : s.Steady (s.reportRoom room e) := by
  have h1 : ∀ s : State, s.Steady (s.presenceCheckIn room e) := fun s => by
    unfold State.presenceCheckIn
    repeat' split
    all_goals first | exact .same s | exact State.changeRes_steady _ _
  have h2 : ∀ s : State, s.Steady (s.countOccupied room e) := fun s => by
    unfold State.countOccupied
    repeat' split
    all_goals first | exact .same s | exact State.modRes_steady _ _
  have h3 : ∀ s : State, s.Steady (s.autoEndRoom room e) := fun s => by
    unfold State.autoEndRoom
    simp only
    repeat' split
    all_goals first | exact .same s | exact (State.changeRes_steady _ _).trans (State.closeDone_steady _)
  exact (h1 _).trans ((h2 _).trans (h3 _))

theorem State.takeReport_steady (entries : List ReportEntry) : s.Steady (s.takeReport entries) := by
  unfold State.takeReport
  exact .ite (.foldl (fun _ _ => State.reportRoom_steady _ _) _ _) (.same s)

/-! ## Drops -/

theorem State.becomePresent_steady (c : DropCode) : s.Steady (s.becomePresent c) := by
  unfold State.becomePresent
  simp only
  split
  · exact .same s
  · have h : ∀ v : State, v.Steady (match s.servedPantry c with
        | some p => if (s.drop c).mode = .normal then v.linkRise p else v
        | none => v) := fun v => by
      split
      · exact .ite (State.linkRise_steady _) (.same _)
      · exact .same _
    exact (State.modDrop_steady _ _).trans ((State.raise_steady _ _).trans (h _))

theorem State.becomeAbsent_steady (c : DropCode) : s.Steady (s.becomeAbsent c) := by
  unfold State.becomeAbsent
  simp only
  split
  · have h : ∀ v : State, ∀ x : Option Nat, v.Steady (match x with | some p => v.linkDown p | none => v) :=
      fun v x => by
        split
        · exact State.linkDown_steady _
        · exact .same _
    exact (State.modDrop_steady _ _).trans ((State.raise_steady _ _).trans (h _ _))
  · exact .same s

theorem State.takeIdent_steady (c : DropCode) (k : DropKind) : s.Steady (s.takeIdent c k) := by
  unfold State.takeIdent
  exact .ite ((State.modDrop_steady _ _).trans (State.raise_steady _ _)) (State.modDrop_steady _ _)

/-! ## Pantry frames and answers -/

theorem State.acked_steady (f : ReplayFrame) : s.Steady (s.acked f) := by
  unfold State.acked
  repeat' split
  all_goals first | exact .same s | exact State.modOrder_steady _ _

theorem State.ackFrames_steady (p k : Nat) : s.Steady (s.ackFrames p k) :=
  (Steady.foldl (fun _ _ => State.acked_steady _) _ _).trans
    ((State.modPantry_steady _ _).trans (State.refreshSeqs_steady _))

theorem State.takeAck_steady (p : Nat) (n : Byte) : s.Steady (s.takeAck p n) := by
  unfold State.takeAck
  simp only
  split
  · exact State.ackFrames_steady _ _
  · exact .ite (.same s) (State.modPantry_steady _ _)

theorem State.takeNack_steady (p : Nat) (n : Byte) : s.Steady (s.takeNack p n) := by
  unfold State.takeNack
  split
  · exact Steady.trans (.ite (State.ackFrames_steady _ _) (.same s)) (State.startReplay_steady _ _ _)
  · exact State.modPantry_steady _ _

theorem State.takeReportOf_steady (p : Nat) (x : PantryReport) : s.Steady (s.takeReportOf p x) := by
  unfold State.takeReportOf
  simp only
  refine Steady.trans (State.modPantry_steady p fun y => { y with taken := some x.order }) ?_
  split
  · exact .same _
  · split
    · split
      · exact (State.leaveCancels_steady _).trans (State.modOrder_steady _ _)
      · exact (State.leaveCancels_steady _).trans ((State.modOrder_steady _ _).trans (State.hand_steady _))
    · exact .same _

theorem State.takeReportOpt_steady (p : Nat) (x : Option PantryReport) : s.Steady (s.takeReportOpt p x) := by
  unfold State.takeReportOpt
  split
  · exact State.takeReportOf_steady _ _
  · exact .same s

theorem State.takeStatus_steady (p : Nat) (x : PantryStatus) : s.Steady (s.takeStatus p x) := by
  unfold State.takeStatus
  simp only
  split
  · exact .same s
  · exact .ite ((State.modPantry_steady _ _).trans ((State.refreshSeqs_steady _).trans ((State.raise_steady _ _).trans
      (State.takeReportOpt_steady _ _)))) (.same s)
  · exact (State.modPantry_steady _ _).trans (State.takeReportOpt_steady _ _)
  · have h : ∀ v : State, v.Steady (match x.seq with
        | some n => if x.nack then v.takeNack p n else v.takeAck p n
        | none => v) := fun v => by
      split
      · exact .ite (State.takeNack_steady _ _) (State.takeAck_steady _ _)
      · exact .same _
    exact (State.modPantry_steady _ _).trans ((h _).trans (State.takeReportOpt_steady _ _))

theorem State.pantryFrame_steady (p : Nat) : s.Steady (s.pantryFrame p).1 := by
  unfold State.pantryFrame State.resend State.sendCancel State.sendOrder
  simp only
  repeat' split
  all_goals first
    | exact .same s
    | exact State.modPantry_steady _ _
    | exact (State.modPantry_steady _ _).trans (State.modOrder_steady _ _)
    | exact .of_eq rfl rfl rfl rfl rfl rfl rfl rfl

theorem State.dropFrame_steady (c : DropCode) : s.Steady (s.dropFrame c).1 := by
  unfold State.dropFrame State.panelFrame State.handShow State.handItem State.handPoll
  simp only
  repeat' split
  all_goals first
    | exact State.modDrop_steady _ _
    | exact State.pantryFrame_steady _

/-! ## Lines -/

theorem State.endTurn_steady (l : Nat) : s.Steady (s.endTurn l) :=
  (State.modLine_steady _ _).trans (State.handOnce_steady _)

theorem State.missTurn_steady (l : Nat) (t : Turn) : s.Steady (s.missTurn l t) := by
  have h : ∀ (v : State) c, v.Steady (if (v.drop c).miss = 3 then v.becomeAbsent c else v) :=
    fun v c => .ite (State.becomeAbsent_steady _) (.same _)
  exact (State.modDrop_steady _ _).trans ((h _ _).trans (State.endTurn_steady _))

theorem State.placeUpframe_steady (c : DropCode) (kind : Byte) (body : Bytes) : s.Steady (s.placeUpframe c kind body) where
  timeStep := by unfold State.placeUpframe; split; rfl; split <;> rfl
  write := by unfold State.placeUpframe; split; rfl; split <;> rfl
  bootMem := by unfold State.placeUpframe; split; rfl; split <;> rfl
  range h := by unfold State.placeUpframe; split; exact h; split <;> exact h
  keeps f := by
    unfold State.placeUpframe
    split <;> rename_i hf
    · have h := f.2.2.2
      simp only [Riser.used, hf, Bool.toNat_true] at h
      have g : Riser.Fits { s.riser with freed := false } := (State.unfreed_keeps f).1
      refine ⟨g.push ?_ _, fun _ => Nat.le_refl _⟩
      simp only [Riser.used, Bool.toNat_false]
      omega
    · split <;> rename_i h
      · exact ⟨f.push (State.freeEntries_pos.1 h) _, fun _ => Nat.le_refl _⟩
      · exact ⟨f, fun _ => Nat.le_refl _⟩
  latch h := by unfold State.placeUpframe; split; exact h; split <;> exact h

theorem State.passOn_steady (c : DropCode) (f : UpFrame) (kind : Byte) (body : Bytes) : s.Steady (s.passOn c f kind body) := by
  unfold State.passOn
  simp only
  repeat' split
  all_goals first
    | exact .same s
    | exact State.takeIdent_steady _ _
    | exact State.modDrop_steady _ _
    | exact State.hand_steady _
    | exact State.placeUpframe_steady _ _ _

theorem State.goodTurn_steady (l : Nat) (t : Turn) (f : UpFrame) (kind : Byte) (body : Bytes) :
    s.Steady (s.goodTurn l t f kind body) :=
  (State.modDrop_steady _ _).trans ((State.becomePresent_steady _).trans ((State.endTurn_steady _).trans
    (State.passOn_steady _ _ _ _)))

theorem State.takeFrame_steady (l : Nat) (t : Turn) (frame : Bytes) : s.Steady (s.takeFrame l t frame) := by
  unfold State.takeFrame State.takeWait
  split
  · exact (State.modLine_steady _ _).trans (State.missTurn_steady _ _)
  · exact .ite (State.modLine_steady _ _) ((State.modLine_steady _ _).trans (State.missTurn_steady _ _))
  · exact State.goodTurn_steady _ _ _ _ _

theorem State.takeUpFrame_steady (l : Nat) (frame : Bytes) : s.Steady (s.takeUpFrame l frame) := by
  unfold State.takeUpFrame
  simp only
  repeat' split
  all_goals first
    | exact .same s
    | exact State.modLine_steady _ _
    | exact (State.modLine_steady _ _).trans (State.modLine_steady _ _)
    | exact (State.modLine_steady _ _).trans (State.takeFrame_steady _ _ _)

/-- A frame of no bytes fails every check (R135: a frame not ended in time). -/
@[simp] theorem checkFrame_nil (addr : Nat) : checkFrame addr [] = none := rfl

theorem State.startTurn_steady (l a : Nat) (probe : Bool) : s.Steady (s.startTurn l a probe) := by
  unfold State.startTurn
  refine Steady.trans ?_ (State.modLine_steady _ _)
  split
  · exact State.modDrop_steady _ _
  · exact State.dropFrame_steady _

theorem State.walk_steady (l n : Nat) : s.Steady (State.walk l n s) := by
  induction n generalizing s with
  | zero => exact State.modLine_steady _ _
  | succ n ih =>
    unfold State.walk
    simp only
    split
    · exact State.startTurn_steady _ _ _
    · exact (State.modLine_steady _ _).trans ih

theorem State.resumeWalk_steady (l : Nat) : s.Steady (s.resumeWalk l) := by
  unfold State.resumeWalk
  exact .ite ((State.modLine_steady _ _).trans (State.handOnce_steady _)) (.same s)

theorem State.leaveDrop_steady (c : DropCode) : s.Steady (s.leaveDrop c) :=
  (State.becomeAbsent_steady _).trans (State.modDrop_steady _ _)

theorem State.leaveRunning_steady (l : Nat) : s.Steady (s.leaveRunning l) :=
  (State.modLine_steady l _).trans (.foldl (fun _ _ => State.leaveDrop_steady _) _ _)

theorem State.setLine_steady (l : Nat) (st : LineState) (feed low : Bool) : s.Steady (s.setLine l st feed low) :=
  Steady.trans (.ite (State.leaveRunning_steady _) (.same s)) (State.modLine_steady _ _)

theorem State.powerOn_steady (l : Nat) : s.Steady (s.powerOn l) := by
  unfold State.powerOn
  exact .ite (State.setLine_steady _ _ _ _) (.same s)

theorem State.abandonTurn_steady (c : DropCode) : s.Steady (s.abandonTurn c) := by
  unfold State.abandonTurn
  split
  · exact .ite (State.modLine_steady _ _) (.same s)
  · exact .same s

theorem State.linkForMode_steady (c : DropCode) (m : DropMode) : s.Steady (s.linkForMode c m) := by
  unfold State.linkForMode
  repeat' split
  all_goals first
    | exact .same s
    | exact (State.modPantry_steady _ _).trans (State.failLink_steady _)
    | exact State.linkDown_steady _
    | exact State.linkRise_steady _

theorem State.changeMode_steady (c : DropCode) (m : DropMode) : s.Steady (s.changeMode c m) :=
  (State.modDrop_steady _ _).trans ((State.linkForMode_steady _ _).trans ((State.abandonTurn_steady _).trans
    (State.resumeWalk_steady _)))

/-! ## LOADs -/

/-- A LOAD that is taken is steady. -/
theorem State.load_steady {r : LoadReq} {x : State × Bool} (h : s.load r = .ok x) : s.Steady x.1 := by
  cases r <;> simp only [State.load] at h
  · unfold State.loadFloorRecord at h
    split at h
    · cases h
    · cases h
      exact ⟨rfl, rfl, rfl, id, fun f => ⟨f, fun _ => Nat.le_refl _⟩, id⟩
  · unfold State.loadRoomMap at h
    simp only at h
    repeat' split at h
    all_goals cases h
    all_goals first | exact .same s | exact .of_eq rfl rfl rfl rfl rfl rfl rfl rfl
  · unfold State.loadRoomClass at h
    split at h
    · cases h
    · split at h
      · cases h
      · cases h
        refine Steady.trans ?_ (.foldl (fun _ _ => State.markRoom_steady _) _ _)
        exact .of_eq rfl rfl rfl rfl rfl rfl rfl rfl
  · unfold State.loadRoomTable at h
    split at h
    · cases h
    · split at h
      · cases h; exact .same s
      · cases h; exact .of_eq rfl rfl rfl rfl rfl rfl rfl rfl
  · unfold State.loadDropTable at h
    split at h
    · cases h
    · split at h
      · cases h
      · simp only at h
        have hm : ∀ (v : State) r, v.Steady (v.markOpt r) := fun v r => by
          unfold State.markOpt
          split
          · exact State.markRoom_steady _
          · exact .same v
        split at h
        · cases h; exact State.resumeWalk_steady _
        · split at h
          · cases h
          · cases h
            have hr : ∀ (v : State) (q : Prop) [Decidable q], v.Steady (if q then v.raise (dropLatch ‹DropCode›)
                .kindMismatch else v) := fun v q _ => .ite (State.raise_steady _ _) (.same _)
            exact (hm _ _).trans ((State.modDrop_steady _ _).trans ((hm _ _).trans ((hr _ _).trans
              (State.resumeWalk_steady _))))
  · unfold State.loadLineConfig at h
    split at h
    · cases h
    · cases h
      exact (State.modLine_steady _ _).trans (State.resumeWalk_steady _)
  · rename_i p f
    unfold State.loadPantryConfig at h
    simp only at h
    have k : ∀ (v : State) (c : Option DropCode), v.Steady (match c with
        | some c => if (v.drop c).present && (v.drop c).mode = .normal then v.linkRise p else v
        | none => v) := fun v c => by
      split
      · exact .ite (State.linkRise_steady _) (.same _)
      · exact .same _
    repeat' split at h
    all_goals cases h
    all_goals first
      | exact State.modPantry_steady _ _
      | exact (State.modPantry_steady _ _).trans (State.linkRise_steady _)

/-! ## The boot load -/

theorem State.skip_steady (offset : Nat) (c : SkipCause) : s.Steady (s.skip offset c) :=
  .of_eq rfl rfl rfl rfl rfl rfl rfl rfl

theorem State.cutSecond_steady : s.Steady s.cutSecond :=
  (Steady.of_riser (fun r => { r with offlineCuts := r.offlineCuts + 1 }) (fun _ => rfl) (fun _ => rfl) (fun _ => rfl)
    (fun _ => rfl) (fun _ => rfl) (fun _ => rfl)).trans (.of_eq rfl rfl rfl rfl rfl rfl rfl rfl)

theorem State.endLoad_steady (b : Option BlankReason) : s.Steady (s.endLoad b) := by
  have h1 : ∀ (v : State) f, (∀ x, (f x).write = x.write) → v.Steady (v.modBoot f) :=
    fun v f hf => .of_eq rfl (hf _) rfl rfl rfl rfl rfl rfl
  have h2 : ∀ (v : State) r, v.Steady (v.closeAtStart r) := fun v r => by
    unfold State.closeAtStart
    exact .ite (State.setService_steady _ _) (.same v)
  have h3 : ∀ (v : State) l, v.Steady (v.powerAtStart l) := fun v l => by
    unfold State.powerAtStart
    exact .ite (State.powerOn_steady _) (.same v)
  have h4 : ∀ (v : State) n, v.Steady (v.modRiser fun r => { r with offlineTimer := n, offlineCuts := 0 }) :=
    fun v n => .of_riser _ (fun _ => rfl) (fun _ => rfl) (fun _ => rfl) (fun _ => rfl) (fun _ => rfl)
      (fun _ => rfl)
  unfold State.endLoad
  simp only
  refine Steady.trans ?_ (State.raise_steady _ _)
  refine Steady.trans ?_ (h4 _ _)
  refine Steady.trans ?_ (Steady.foldl h3 _ _)
  refine Steady.trans ?_ (Steady.foldl h2 _ _)
  exact h1 _ _ fun _ => rfl

theorem State.bootLoad_steady (offset : Nat) (r : LoadReq) (c : SkipCause) : s.Steady (s.bootLoad offset r c) := by
  unfold State.bootLoad
  split
  · rename_i t clamped h
    exact (State.load_steady h).trans (.of_eq rfl rfl rfl rfl rfl rfl rfl rfl)
  · exact State.skip_steady _ _

theorem State.dealRecord_steady (offset : Nat) (first : Bool) (body : Bytes) : s.Steady (s.dealRecord offset first body) := by
  unfold State.dealRecord
  split
  · exact State.skip_steady _ _
  · exact State.bootLoad_steady _ _ _
  · exact Steady.trans (.ite (State.skip_steady _ _) (.same s)) (State.bootLoad_steady _ _ _)

theorem State.nextRecord_steady (offset limit : Nat) : s.Steady (s.nextRecord offset limit) := by
  unfold State.nextRecord
  exact .ite (State.endLoad_steady _) (.of_eq rfl rfl rfl rfl rfl rfl rfl rfl)

end Sys2Proof.Machine
end

