-- ==== Sys2Proof/Laws/Memory.lean ====
section
/-! SUPPORT. The boot memory: what is read after a write, and that every operation keeps the canonical form. -/

namespace Sys2Proof.Machine

/-- A byte at an address that every listed address lies above reads as erased. -/
theorem memRead_below {lo : Nat} {m : List Host.Cell} (h : memWfFrom lo m = true) {a : Nat} (ha : a < lo) :
    memRead m a = erasedByte := by
  induction m generalizing lo with
  | nil => rfl
  | cons c m ih =>
    obtain ⟨k, b⟩ := c
    simp only [memWfFrom, Bool.and_eq_true, decide_eq_true_eq] at h
    simp only [memRead, if_neg (show k ≠ a by omega)]
    exact ih h.2 (by omega)

theorem memWfFrom_weaken {lo hi : Nat} {m : List Host.Cell} (h : memWfFrom hi m = true) (hl : lo ≤ hi) :
    memWfFrom lo m = true := by
  cases m with
  | nil => rfl
  | cons c m =>
    simp only [memWfFrom, Bool.and_eq_true, decide_eq_true_eq] at h ⊢
    exact ⟨⟨⟨by omega, h.1.1.2⟩, h.1.2⟩, h.2⟩

/-- What every address reads as after one byte is written. -/
theorem memRead_memWrite {lo : Nat} {m : List Host.Cell} (h : memWfFrom lo m = true) (a x : Nat) (b : Byte) :
    memRead (memWrite m a b) x = if x = a then b else memRead m x := by
  induction m generalizing lo with
  | nil =>
    simp only [memWrite]
    split <;> rename_i hb
    · by_cases hx : x = a <;> simp_all [memRead]
    · by_cases hx : x = a
      · simp [memRead, hx]
      · simp [memRead, hx, Ne.symm hx]
  | cons c m ih =>
    obtain ⟨k, v⟩ := c
    simp only [memWfFrom, Bool.and_eq_true, decide_eq_true_eq] at h
    have low : ∀ y, y < k + 1 → memRead m y = erasedByte := fun y hy => memRead_below h.2 hy
    have rest : memRead (memWrite m a b) x = if x = a then b else memRead m x := ih h.2
    unfold memWrite
    split <;> rename_i h1
    · split <;> rename_i hb
      · by_cases hx : x = a
        · subst hx; simp [memRead, show k ≠ x by omega, low x (by omega), hb]
        · simp [hx]
      · by_cases hx : x = a
        · simp [memRead, hx]
        · simp [memRead, hx, Ne.symm hx]
    · split <;> rename_i h2
      · subst h2
        split <;> rename_i hb
        · by_cases hx : x = a
          · subst hx; simp [low x (by omega), hb]
          · simp [memRead, hx, Ne.symm hx]
        · by_cases hx : x = a
          · simp [memRead, hx]
          · simp [memRead, hx, Ne.symm hx]
      · by_cases hk : k = x
        · subst hk; simp [memRead, Ne.symm h2]
        · simp [memRead, hk, rest]

theorem memWfFrom_memWrite {lo : Nat} {m : List Host.Cell} (h : memWfFrom lo m = true) {a : Nat} {b : Byte} (hlo : lo ≤ a)
    (ha : a < 8192) : memWfFrom lo (memWrite m a b) = true := by
  induction m generalizing lo with
  | nil =>
    simp only [memWrite]
    split <;> simp_all [memWfFrom]
  | cons c m ih =>
    obtain ⟨k, v⟩ := c
    simp only [memWfFrom, Bool.and_eq_true, decide_eq_true_eq] at h
    unfold memWrite
    split <;> rename_i h1
    · split <;> rename_i hb
      · simp [memWfFrom, h]
      · simp [memWfFrom, h, hlo, ha, hb, Nat.succ_le_of_lt h1]
    · split <;> rename_i h2
      · subst h2
        split <;> rename_i hb
        · exact memWfFrom_weaken h.2 (by omega)
        · simp [memWfFrom, h, hb]
      · simp only [memWfFrom, Bool.and_eq_true, decide_eq_true_eq]
        exact ⟨h.1, ih h.2 (by omega)⟩

/-- A byte written keeps the canonical form. -/
theorem memWf_memWrite {m : List Host.Cell} (h : memWf m = true) {a : Nat} (ha : a < 8192) (b : Byte) :
    memWf (memWrite m a b) = true := memWfFrom_memWrite h (Nat.zero_le a) ha

/-- A run of bytes written inside the memory keeps the canonical form. -/
theorem memWf_memWriteRun {m : List Host.Cell} (h : memWf m = true) (bs : Bytes) {a : Nat} (ha : a + bs.length ≤ 8192) :
    memWf (memWriteRun m a bs) = true := by
  induction bs generalizing m a with
  | nil => exact h
  | cons b bs ih =>
    simp only [List.length_cons] at ha
    exact ih (memWf_memWrite h (by omega) b) (by omega)

/-- What every address reads as after a run of bytes is written. -/
theorem memRead_memWriteRun {m : List Host.Cell} (h : memWf m = true) (bs : Bytes) {a : Nat} (ha : a + bs.length ≤ 8192)
    (x : Nat) :
    memRead (memWriteRun m a bs) x = if a ≤ x ∧ x < a + bs.length then bs[x - a]?.getD 0 else memRead m x := by
  induction bs generalizing m a with
  | nil => simp [memWriteRun, show ¬ (a ≤ x ∧ x < a) by omega]
  | cons b bs ih =>
    simp only [List.length_cons] at ha
    simp only [memWriteRun]
    rw [ih (memWf_memWrite h (by omega) b) (by omega), memRead_memWrite (lo := 0) h]
    rcases Nat.lt_trichotomy x a with hx | hx | hx
    · simp [show ¬ (a + 1 ≤ x) by omega, show x ≠ a by omega, show ¬ (a ≤ x) by omega]
    · subst hx; simp [show ¬ (x + 1 ≤ x) by omega]
    · have e : x - a = (x - (a + 1)) + 1 := by omega
      simp only [List.length_cons, e, List.getElem?_cons_succ]
      by_cases hy : x < a + 1 + bs.length
      · simp [show a + 1 ≤ x by omega, hy, show a ≤ x by omega, show x < a + (bs.length + 1) by omega]
      · simp [hy, show x ≠ a by omega, show ¬ x < a + (bs.length + 1) by omega]

/-- One byte written leaves every other byte, whatever the memory. -/
theorem memRead_memWrite_other (m : List Host.Cell) (b : Byte) {a x : Nat} (hx : x ≠ a) :
    memRead (memWrite m a b) x = memRead m x := by
  induction m with
  | nil => simp only [memWrite]; split <;> simp [memRead, Ne.symm hx]
  | cons c m ih =>
    obtain ⟨k, v⟩ := c
    unfold memWrite
    split
    · split <;> simp [memRead, Ne.symm hx]
    · split <;> rename_i h2
      · split <;> simp [memRead, ← h2, Ne.symm hx]
      · simp [memRead, ih]

/-- A run of bytes written leaves every byte outside it, whatever the memory. -/
theorem memRead_memWriteRun_outside (m : List Host.Cell) (bs : Bytes) {a x : Nat} (hx : x < a ∨ a + bs.length ≤ x) :
    memRead (memWriteRun m a bs) x = memRead m x := by
  induction bs generalizing m a with
  | nil => rfl
  | cons b bs ih =>
    simp only [List.length_cons] at hx
    rw [memWriteRun, ih _ (by omega), memRead_memWrite_other m b (by omega)]

/-- A spoilt page keeps the canonical form. -/
theorem memWf_spoilPage {m : List Host.Cell} (h : memWf m = true) {base : Nat} (hb : base + 32 ≤ 8192) (free : Nat) :
    memWf (spoilPage m base free) = true := memWf_memWriteRun h _ (by simpa using hb)

/-- A spoilt page leaves every byte outside it. -/
theorem memRead_spoilPage (m : List Host.Cell) {base : Nat} (free : Nat) {x : Nat} (hx : x < base ∨ base + 32 ≤ x) :
    memRead (spoilPage m base free) x = memRead m x :=
  memRead_memWriteRun_outside m _ (by simpa using hx)

/-! ## A write in flight -/

variable {s : State}

@[simp] theorem State.endWrite_bootMem (w : Write) (code : Code) (body : Body) : (s.endWrite w code body).bootMem = s.bootMem :=
  rfl

@[simp] theorem State.endWrite_write (w : Write) (code : Code) (body : Body) : (s.endWrite w code body).boot.write = none :=
  rfl

/-- The chunk of a page write ends with the page or with the run. -/
theorem Write.chunk_length (w : Write) :
    w.chunk.length =
      min (pageBase (w.offset + w.written) + 32 - (w.offset + w.written)) (w.run.length - w.written) := by
  simp [Write.chunk]

end Sys2Proof.Machine
end

