-- ==== Sys2Proof/Laws/Orders.lean ====
section
/-! SUPPORT. Where an entry goes in an ordered list, and what the dispatch window test and its queue can do. -/

namespace Sys2Proof.Machine

variable {s : State}

/-! ## Ordered lists -/

/-- An entry goes after every entry whose key is at or before its own, up to the first with a later one. -/
theorem insertByKey_split {α : Type} (keyOf : α → Nat) (a : α) (key : Nat) (l : List α) : ∃ before after,
    l = before ++ after ∧ insertByKey keyOf a key l = before ++ a :: after ∧ (∀ x ∈ before, keyOf x ≤ key) ∧
    ∀ x, after.head? = some x → key < keyOf x := by
  induction l with
  | nil => exact ⟨[], [], rfl, rfl, by simp, by simp⟩
  | cons b bs ih =>
    by_cases h : keyOf b ≤ key
    · obtain ⟨u, v, h1, h2, h3, h4⟩ := ih
      refine ⟨b :: u, v, by simp [h1], by simp [insertByKey, h, h2], ?_, h4⟩
      simpa [h] using h3
    · exact ⟨[], b :: bs, rfl, by simp [insertByKey, h], by simp, by simpa using h⟩

theorem mem_insertByKey {α : Type} (keyOf : α → Nat) (a : α) (key : Nat) (l : List α) (x : α) :
    x ∈ insertByKey keyOf a key l ↔ x = a ∨ x ∈ l := by
  obtain ⟨u, v, h1, h2, -, -⟩ := insertByKey_split keyOf a key l
  rw [h2, h1]; simp; tauto

theorem sublist_insertByKey {α : Type} (keyOf : α → Nat) (a : α) (key : Nat) (l : List α) :
    l.Sublist (insertByKey keyOf a key l) := by
  obtain ⟨u, v, h1, h2, -, -⟩ := insertByKey_split keyOf a key l
  rw [h2, h1]; simp

/-- A list in the order of its keys stays so. -/
theorem sorted_insertByKey {α : Type} (keyOf : α → Nat) (a : α) {l : List α}
    (h : l.Pairwise fun x y => keyOf x ≤ keyOf y) :
    (insertByKey keyOf a (keyOf a) l).Pairwise fun x y => keyOf x ≤ keyOf y := by
  obtain ⟨u, v, h1, h2, h3, h4⟩ := insertByKey_split keyOf a (keyOf a) l
  rw [h1, List.pairwise_append] at h
  obtain ⟨hu, hv, huv⟩ := h
  have hav : ∀ y ∈ v, keyOf a ≤ keyOf y := by
    cases v with
    | nil => simp
    | cons b bs =>
      intro y hy
      have hb := h4 b rfl
      rcases List.mem_cons.mp hy with rfl | hy
      · omega
      · have := (List.pairwise_cons.mp hv).1 y hy; omega
  rw [h2, List.pairwise_append]
  refine ⟨hu, List.pairwise_cons.mpr ⟨hav, hv⟩, fun x hx y hy => ?_⟩
  rcases List.mem_cons.mp hy with rfl | hy
  · exact h3 x hx
  · exact huv x hx y hy

/-! ## The dispatch window test -/

/-- The window of an order has opened at a slot: it is HELD, its reservation is in a TODAY list, and the slot is within
the lead of its deliver-by slot (R93). -/
def State.opensAt (s : State) (j : Nat) (o : Order) : Prop :=
  o.state = .held ∧ s.orderDay o = some .today ∧ o.deliverBy - (s.pantry o.pantry).lead ≤ j

theorem State.testWindow_none {j : Nat} {id : OrderId} (h : s.order id = none) : s.testWindow j id = s := by
  simp [State.testWindow, h]

/-- An order whose window has opened is queued. -/
theorem State.testWindow_opens {j : Nat} {id : OrderId} {o : Order} (h : s.order id = some o) (ho : s.opensAt j o) :
    s.testWindow j id = s.enqueue o := by
  unfold State.opensAt at ho
  simp only [State.testWindow, h]; rw [if_pos ho]

/-- Any other order is left as it is. -/
theorem State.testWindow_waits {j : Nat} {id : OrderId} {o : Order} (h : s.order id = some o) (ho : ¬ s.opensAt j o) :
    s.testWindow j id = s := by
  unfold State.opensAt at ho
  simp only [State.testWindow, h]; rw [if_neg ho]

theorem State.order_enqueue (o : Order) (x : OrderId) :
    (s.enqueue o).order x = if x = o.id then (s.order x).map fun o => { o with state := .queued } else s.order x :=
  (s.order_modOrder o.id x (fun o => { o with state := .queued }) fun _ => rfl)

theorem State.pantry_enqueue_same {o : Order} (h : o.pantry < 8) :
    (s.enqueue o).pantry o.pantry = { s.pantry o.pantry with
      dispatch := insertByKey s.deliverBy o.id o.deliverBy (s.pantry o.pantry).dispatch } := by
  unfold State.enqueue; rw [State.pantry_modPantry_same h]; rfl

theorem State.pantry_enqueue_other {o : Order} {p : Nat} (h : p ≠ o.pantry) : (s.enqueue o).pantry p = s.pantry p := by
  unfold State.enqueue; rw [State.pantry_modPantry_other h]; rfl

@[simp] theorem State.enqueue_pool (o : Order) : (s.enqueue o).pool = s.pool := rfl
@[simp] theorem State.enqueue_rooms (o : Order) : (s.enqueue o).rooms = s.rooms := rfl
@[simp] theorem State.enqueue_clock (o : Order) : (s.enqueue o).clock = s.clock := rfl

theorem State.deliverBy_of {id : OrderId} {o : Order} (h : s.order id = some o) : s.deliverBy id = o.deliverBy := by
  simp [State.deliverBy, h]

/-- The test changes no order's deliver-by slot. -/
theorem State.deliverBy_enqueue (o : Order) (x : OrderId) : (s.enqueue o).deliverBy x = s.deliverBy x := by
  unfold State.deliverBy; rw [State.order_enqueue]
  split
  · cases s.order x <;> rfl
  · rfl

end Sys2Proof.Machine
end

