-- ==== Sys2Proof/WellFormed.lean ====
section
/-! DEFINITION. Well-formed commands: every operand lies in the width its field has in a message, a frame or a table
(spec/11), or in the range of the thing it names. -/

namespace Sys2Proof

/-- A one-byte field. -/
def byteOk (n : Nat) : Bool := decide (n ≤ 255)

/-- A two-byte field. -/
def wordOk (n : Nat) : Bool := decide (n ≤ 65535)

/-- A drop byte's line and address: bits 5..4 and 3..0 (section 11.1). -/
def dropOk (c : DropCode) : Bool := decide (c.line ≤ 3) && decide (c.addr ≤ 15)

/-- A drop code of a drop: address 0 is never a drop (spec/00 section 5). -/
def realDropOk (c : DropCode) : Bool := decide (c.line ≤ 3) && decide (1 ≤ c.addr) && decide (c.addr ≤ 15)

def roomCodeOk (c : RoomCode) : Bool := decide (c.building ≤ 15) && decide (c.floor ≤ 63) && decide (c.room ≤ 63)

def localRoomOk (r : Nat) : Bool := decide (r ≤ 47)

def lineOk (l : Nat) : Bool := decide (l ≤ 3)

def orderLineOk (l : OrderLine) : Bool := decide (l.item ≤ 4095) && decide (1 ≤ l.qty) && decide (l.qty ≤ 63)

def orderFieldsOk (o : OrderReq) : Bool :=
  decide (o.pantry ≤ 7) && wordOk o.deliverBy && wordOk o.cutoff && decide (1 ≤ o.lines.length) &&
  decide (o.lines.length ≤ 8) && o.lines.all orderLineOk

def bookFieldsOk (b : BookReq) : Bool :=
  decide (b.day ≤ 1) && wordOk b.start && wordOk b.stop && decide (b.orders.length ≤ 2) && b.orders.all orderFieldsOk

def refFieldsOk : Ref → Bool
  | .index i => wordOk i
  | .serverId _ day => decide (day ≤ 1)

def alterFieldsOk (a : AlterReq) : Bool :=
  refFieldsOk a.ref && (a.newStart.all wordOk) && (a.newEnd.all wordOk)

def frameFromOk (f : FrameFrom) : Bool := realDropOk f.drop && f.room.all localRoomOk

/-- A command whose operands its message, frame or event can carry. -/
def Instr.wellFormed : Instr → Bool
  | .powerOn | .resetInput | .resetInputHeldLow | .bootHeaderRead | .bootRecordRead | .bootMemoryTimeout
  | .routeMessage | .uplinkTransmitEnd | .onwardTransmitEnd | .uplinkLinkChange _ | .onwardLinkChange _
  | .offlineTimerExpiry | .timeStepComplete | .bootPageWriteDone | .bootWriteAckTimeout | .restart _ | .restartTimeout
  | .clockSecond | .evidenceTick | .readFloorRecord _ _ | .readOrder _ _ _ | .readRiserPort _ _ | .readFloorClock _ _
  | .readEventSummary _ _ | .readBootStatus _ _ => true
  | .uplinkArrival t p | .onwardArrival t p => wordOk t && decide (p.length ≤ 1500)
  | .book _ r b => localRoomOk r && bookFieldsOk b
  | .alter _ r a => r.all localRoomOk && alterFieldsOk a
  | .withdraw _ r f => r.all localRoomOk && refFieldsOk f
  | .contentRoom _ r _ text => localRoomOk r && decide (text.length ≤ 239)
  | .contentDrop _ d _ text => dropOk d && decide (text.length ≤ 239)
  | .service _ d body => dropOk d && decide (body.length ≤ 240)
  | .time _ d m s => wordOk d && wordOk m && byteOk s
  | .loadFloorRecord _ e r =>
    byteOk e && byteOk r.building && byteOk r.floor && byteOk r.windowLow && byteOk r.windowHigh &&
    byteOk r.localWeight && byteOk r.onwardWeight && wordOk r.offlineTimeout && wordOk r.riserType
  | .loadRoomMap _ e c => byteOk e && c.all roomCodeOk
  | .loadRoomClass _ e f =>
    byteOk e && byteOk f.grace && byteOk f.turnaround && byteOk f.clean && byteOk f.walkupMax && byteOk f.presence &&
    byteOk f.autoEnd && byteOk f.weight && byteOk f.decay && wordOk f.bump && wordOk f.tOn && wordOk f.tOff &&
    byteOk f.closedAtStart
  | .loadRoomTable _ e c => byteOk e && byteOk c
  | .loadDropTable _ d f =>
    dropOk d && byteOk f.kind && f.room.all (fun r => decide (r ≤ 254)) && f.pantry.all (fun p => decide (p ≤ 254))
  | .loadLineConfig _ l f => byteOk l && byteOk f.timeoutCode && decide (f.phases.length = 32) && f.phases.all byteOk
  | .loadPantryConfig _ p f => byteOk p && f.drop.all dropOk && byteOk f.lead && byteOk f.timeoutCode
  | .readRoomMap _ _ n | .readRoomClass _ _ n | .readRoomTable _ _ n | .readPantryConfig _ _ n
  | .readReservation _ _ n | .readEvidence _ _ n | .readLine _ _ n | .readPantryLink _ _ n
  | .readEventLatch _ _ n => wordOk n
  | .readDrop _ _ d => dropOk d
  | .listDirty _ c => wordOk c
  | .markClean _ i _ => wordOk i
  | .linePowerOn _ l | .linePowerOff _ l | .lineBreak _ l => byteOk l
  | .dropMode _ d m => dropOk d && decide (m ≤ 3)
  | .roomClose _ r | .roomOpen _ r => byteOk r
  | .pantryResync _ p => byteOk p
  | .clear _ l => byteOk l
  | .bootWrite _ o run => wordOk o && decide (run.length ≤ 64)
  | .bootReadbackDone bs => decide (bs.length ≤ 64)
  | .tickReport es => decide (es.length = 48) && es.all fun e => byteOk e.vacantRun
  | .slotBoundary d k => wordOk d && decide (1 ≤ k) && decide (k ≤ 287)
  | .bookingSlotRun d k => wordOk d && decide (k ≤ 288)
  | .dispatcherSlotRun k => decide (k ≤ 288)
  | .dayBoundary d => wordOk d
  | .withdrawNotice i k => decide (i ≤ 767) && k.all fun j => decide (j ≤ 288)
  | .orderOutcomeNotice i _ => decide (i ≤ 767)
  | .keyCheckIn f | .keyEnd f | .keyExtend f => frameFromOk f
  | .walkup f n => frameFromOk f && byteOk n
  | .sample f l => frameFromOk f && byteOk l
  | .entry f _ => frameFromOk f
  | .pantryStatus d _ => realDropOk d
  | .replayTimerExpiry p => decide (p ≤ 7)
  | .settlingEnd l | .breakLowEnd l | .breakQuietEnd l | .powerFault l | .walkPhase l | .downFrameSent l
  | .answerTimeout l | .frameEndTimeout l | .abandonedTurnEnd l | .upFrameFirstByte l => lineOk l
  | .upFrameReceived l frame => lineOk l && decide (frame.length ≤ 244)

end Sys2Proof
end

