-- ==== Sys2Proof/Tests/Slice0.lean ====
section
/-! SUPPORT. Tests: the spec's worked cases on small states, the well-formedness checks, and for every statement with
hypotheses a state and operands that meet them. -/

namespace Sys2Proof.Tests

open Sys2Proof Sys2Proof.Machine

-- One theorem at a time: each waits for the kernel, and a hundred waiting threads are more than the check allows.
set_option Elab.async false

/-! ## Small states -/

/-- The state after a command. -/
def go (c : Instr) (s : State) : State :=
  match exec c s with
  | .next t => t
  | .fault _ => s
  | .refused _ => s

/-- The part with its boot load ended and its clock unset. -/
def ready : State := { State.reset with boot := { Boot.reset with load := .done, phase := .idle } }

/-- The part with its clock set to a minute of day 412. -/
def clockAt (minute : Nat) : State :=
  { ready with clock := { isSet := true, seconds := 0, minute := minute, day := 412, periods := 0 } }

/-- A TODAY record of the server with no order. -/
def booking (room start stop tail : Nat) (st : ResState) : Reservation :=
  { room := room, day := .today, state := st, start := start, stop := stop, tail := tail, origin := .server,
    serverId := some 7, organiser := none, early := false, checkIn := none, endReason := none, closedAt := none,
    occupied := 0, orders := [], cateringFault := false, version := 0, dirty := false }

/-- A record at an index, at the end of its day list. -/
def put (i : Nat) (r : Reservation) (s : State) : State := (s.setRes i (some r)).modList r.room r.day fun l => l ++ [i]

/-- A drop in NORMAL mode, present, on a running line. -/
def withDrop (c : DropCode) (k : DropKind) (room pantry : Option Nat) (s : State) : State :=
  (s.modDrop c fun d => { d with
    kind := k, room := room, pantry := pantry, mode := .normal, present := true, reported := some k
    stale := false }).modLine c.line fun x => { x with state := .running, feed := true }

/-- The replies in the local transmit queue, oldest first. -/
def answers (s : State) : List (Code × Body) := s.riser.localQueue.filterMap fun
  | .reply _ _ _ _ code body => some (code, body)
  | _ => none

/-- The answer in a panel's slot. -/
def answered (c : DropCode) (s : State) : Option AnswerResult := (s.drop c).answer.map Answer.result

def panel : DropCode := { line := 0, addr := 1 }

/-! ## Well-formedness: an ill-formed term for each check -/

def illFormed1 : List Instr :=
  [.uplinkArrival 65536 [],
   .onwardArrival 0 (List.replicate 1501 0),
   .book 0 48 { serverId := 1, day := 0, start := 1, stop := 2, organiser := none, orders := [] },
   .book 0 0 { serverId := 1, day := 2, start := 1, stop := 2, organiser := none, orders := [] },
   .book 0 0 { serverId := 1, day := 0, start := 65536, stop := 2, organiser := none, orders := [] },
   .book 0 0 { serverId := 1, day := 0, start := 1, stop := 65536, organiser := none, orders := [] },
   .book 0 0 { serverId := 1, day := 0, start := 1, stop := 2, organiser := none, orders := [{ id := 1, pantry := 0, deliverBy := 1, cutoff := 1, lines := [{ item := 1, qty := 1 }] }, { id := 1, pantry := 0, deliverBy := 1, cutoff := 1, lines := [{ item := 1, qty := 1 }] }, { id := 1, pantry := 0, deliverBy := 1, cutoff := 1, lines := [{ item := 1, qty := 1 }] }] },
   .book 0 0 { serverId := 1, day := 0, start := 1, stop := 2, organiser := none, orders := [{ id := 1, pantry := 8, deliverBy := 1, cutoff := 1, lines := [{ item := 1, qty := 1 }] }] },
   .book 0 0 { serverId := 1, day := 0, start := 1, stop := 2, organiser := none, orders := [{ id := 1, pantry := 0, deliverBy := 65536, cutoff := 1, lines := [{ item := 1, qty := 1 }] }] },
   .book 0 0 { serverId := 1, day := 0, start := 1, stop := 2, organiser := none, orders := [{ id := 1, pantry := 0, deliverBy := 1, cutoff := 65536, lines := [{ item := 1, qty := 1 }] }] },
   .book 0 0 { serverId := 1, day := 0, start := 1, stop := 2, organiser := none, orders := [{ id := 1, pantry := 0, deliverBy := 1, cutoff := 1, lines := [] }] },
   .book 0 0 { serverId := 1, day := 0, start := 1, stop := 2, organiser := none, orders := [{ id := 1, pantry := 0, deliverBy := 1, cutoff := 1, lines := List.replicate 9 { item := 1, qty := 1 } }] },
   .book 0 0 { serverId := 1, day := 0, start := 1, stop := 2, organiser := none, orders := [{ id := 1, pantry := 0, deliverBy := 1, cutoff := 1, lines := [{ item := 4096, qty := 1 }] }] },
   .book 0 0 { serverId := 1, day := 0, start := 1, stop := 2, organiser := none, orders := [{ id := 1, pantry := 0, deliverBy := 1, cutoff := 1, lines := [{ item := 1, qty := 0 }] }] },
   .book 0 0 { serverId := 1, day := 0, start := 1, stop := 2, organiser := none, orders := [{ id := 1, pantry := 0, deliverBy := 1, cutoff := 1, lines := [{ item := 1, qty := 64 }] }] },
   .alter 0 (some 48) { ref := .index 0, newStart := none, newEnd := none },
   .alter 0 none { ref := .index 65536, newStart := none, newEnd := none },
   .alter 0 none { ref := .serverId 1 2, newStart := none, newEnd := none },
   .alter 0 none { ref := .index 0, newStart := some 65536, newEnd := none },
   .alter 0 none { ref := .index 0, newStart := none, newEnd := some 65536 },
   .withdraw 0 (some 48) (.index 0),
   .withdraw 0 none (.index 65536),
   .contentRoom 0 48 0 [],
   .contentRoom 0 0 0 (List.replicate 240 0),
   .contentDrop 0 { line := 4, addr := 1 } 0 [],
   .contentDrop 0 { line := 0, addr := 16 } 0 [],
   .contentDrop 0 { line := 0, addr := 1 } 0 (List.replicate 240 0),
   .service 0 { line := 4, addr := 1 } [],
   .service 0 { line := 0, addr := 1 } (List.replicate 241 0),
   .time 0 65536 0 0,
   .time 0 0 65536 0,
   .time 0 0 0 256,
   .loadFloorRecord 0 256 { building := 1, floor := 1, windowLow := 1, windowHigh := 0, localWeight := 2, onwardWeight := 1, offlineTimeout := 60, riserType := 40000 },
   .loadFloorRecord 0 0 { building := 256, floor := 1, windowLow := 1, windowHigh := 0, localWeight := 2, onwardWeight := 1, offlineTimeout := 60, riserType := 40000 },
   .loadFloorRecord 0 0 { building := 1, floor := 256, windowLow := 1, windowHigh := 0, localWeight := 2, onwardWeight := 1, offlineTimeout := 60, riserType := 40000 },
   .loadFloorRecord 0 0 { building := 1, floor := 1, windowLow := 256, windowHigh := 0, localWeight := 2, onwardWeight := 1, offlineTimeout := 60, riserType := 40000 },
   .loadFloorRecord 0 0 { building := 1, floor := 1, windowLow := 1, windowHigh := 256, localWeight := 2, onwardWeight := 1, offlineTimeout := 60, riserType := 40000 },
   .loadFloorRecord 0 0 { building := 1, floor := 1, windowLow := 1, windowHigh := 0, localWeight := 256, onwardWeight := 1, offlineTimeout := 60, riserType := 40000 },
   .loadFloorRecord 0 0 { building := 1, floor := 1, windowLow := 1, windowHigh := 0, localWeight := 2, onwardWeight := 256, offlineTimeout := 60, riserType := 40000 },
   .loadFloorRecord 0 0 { building := 1, floor := 1, windowLow := 1, windowHigh := 0, localWeight := 2, onwardWeight := 1, offlineTimeout := 65536, riserType := 40000 }]

def illFormed2 : List Instr :=
  [.loadFloorRecord 0 0 { building := 1, floor := 1, windowLow := 1, windowHigh := 0, localWeight := 2, onwardWeight := 1, offlineTimeout := 60, riserType := 65536 },
   .loadRoomMap 0 256 none,
   .loadRoomMap 0 0 (some { building := 16, floor := 0, room := 0 }),
   .loadRoomMap 0 0 (some { building := 0, floor := 64, room := 0 }),
   .loadRoomMap 0 0 (some { building := 0, floor := 0, room := 64 }),
   .loadRoomClass 0 256 { grace := 3, turnaround := 1, clean := 0, walkupMax := 6, presence := 0, autoEnd := 0, weight := 16, decay := 32, bump := 2000, tOn := 12000, tOff := 6000, closedAtStart := 0 },
   .loadRoomClass 0 0 { grace := 256, turnaround := 1, clean := 0, walkupMax := 6, presence := 0, autoEnd := 0, weight := 16, decay := 32, bump := 2000, tOn := 12000, tOff := 6000, closedAtStart := 0 },
   .loadRoomClass 0 0 { grace := 3, turnaround := 256, clean := 0, walkupMax := 6, presence := 0, autoEnd := 0, weight := 16, decay := 32, bump := 2000, tOn := 12000, tOff := 6000, closedAtStart := 0 },
   .loadRoomClass 0 0 { grace := 3, turnaround := 1, clean := 256, walkupMax := 6, presence := 0, autoEnd := 0, weight := 16, decay := 32, bump := 2000, tOn := 12000, tOff := 6000, closedAtStart := 0 },
   .loadRoomClass 0 0 { grace := 3, turnaround := 1, clean := 0, walkupMax := 256, presence := 0, autoEnd := 0, weight := 16, decay := 32, bump := 2000, tOn := 12000, tOff := 6000, closedAtStart := 0 },
   .loadRoomClass 0 0 { grace := 3, turnaround := 1, clean := 0, walkupMax := 6, presence := 256, autoEnd := 0, weight := 16, decay := 32, bump := 2000, tOn := 12000, tOff := 6000, closedAtStart := 0 },
   .loadRoomClass 0 0 { grace := 3, turnaround := 1, clean := 0, walkupMax := 6, presence := 0, autoEnd := 256, weight := 16, decay := 32, bump := 2000, tOn := 12000, tOff := 6000, closedAtStart := 0 },
   .loadRoomClass 0 0 { grace := 3, turnaround := 1, clean := 0, walkupMax := 6, presence := 0, autoEnd := 0, weight := 256, decay := 32, bump := 2000, tOn := 12000, tOff := 6000, closedAtStart := 0 },
   .loadRoomClass 0 0 { grace := 3, turnaround := 1, clean := 0, walkupMax := 6, presence := 0, autoEnd := 0, weight := 16, decay := 256, bump := 2000, tOn := 12000, tOff := 6000, closedAtStart := 0 },
   .loadRoomClass 0 0 { grace := 3, turnaround := 1, clean := 0, walkupMax := 6, presence := 0, autoEnd := 0, weight := 16, decay := 32, bump := 65536, tOn := 12000, tOff := 6000, closedAtStart := 0 },
   .loadRoomClass 0 0 { grace := 3, turnaround := 1, clean := 0, walkupMax := 6, presence := 0, autoEnd := 0, weight := 16, decay := 32, bump := 2000, tOn := 65536, tOff := 6000, closedAtStart := 0 },
   .loadRoomClass 0 0 { grace := 3, turnaround := 1, clean := 0, walkupMax := 6, presence := 0, autoEnd := 0, weight := 16, decay := 32, bump := 2000, tOn := 12000, tOff := 65536, closedAtStart := 0 },
   .loadRoomClass 0 0 { grace := 3, turnaround := 1, clean := 0, walkupMax := 6, presence := 0, autoEnd := 0, weight := 16, decay := 32, bump := 2000, tOn := 12000, tOff := 6000, closedAtStart := 256 },
   .loadRoomTable 0 256 0,
   .loadRoomTable 0 0 256,
   .loadDropTable 0 { line := 4, addr := 1 } { kind := 1, room := none, pantry := none },
   .loadDropTable 0 { line := 0, addr := 1 } { kind := 256, room := none, pantry := none },
   .loadDropTable 0 { line := 0, addr := 1 } { kind := 1, room := some 255, pantry := none },
   .loadDropTable 0 { line := 0, addr := 1 } { kind := 1, room := none, pantry := some 255 },
   .loadLineConfig 0 256 { timeoutCode := 1, powerAtStart := false, phases := List.replicate 32 0 },
   .loadLineConfig 0 0 { timeoutCode := 256, powerAtStart := false, phases := List.replicate 32 0 },
   .loadLineConfig 0 0 { timeoutCode := 1, powerAtStart := false, phases := [] },
   .loadLineConfig 0 0 { timeoutCode := 1, powerAtStart := false, phases := List.replicate 32 256 },
   .loadPantryConfig 0 256 { drop := none, lead := 3, timeoutCode := 1 },
   .loadPantryConfig 0 0 { drop := some { line := 4, addr := 1 }, lead := 3, timeoutCode := 1 },
   .loadPantryConfig 0 0 { drop := none, lead := 256, timeoutCode := 1 },
   .loadPantryConfig 0 0 { drop := none, lead := 3, timeoutCode := 256 },
   .readRoomMap 0 false 65536,
   .readRoomClass 0 false 65536,
   .readRoomTable 0 false 65536,
   .readPantryConfig 0 false 65536,
   .readReservation 0 false 65536,
   .readEvidence 0 false 65536,
   .readLine 0 false 65536,
   .readPantryLink 0 false 65536]

def illFormed3 : List Instr :=
  [.readEventLatch 0 false 65536,
   .readDrop 0 false { line := 0, addr := 16 },
   .listDirty 0 65536,
   .markClean 0 65536 0,
   .linePowerOn 0 256,
   .linePowerOff 0 256,
   .lineBreak 0 256,
   .dropMode 0 { line := 4, addr := 1 } 0,
   .dropMode 0 { line := 0, addr := 1 } 4,
   .roomClose 0 256,
   .roomOpen 0 256,
   .pantryResync 0 256,
   .clear 0 256,
   .bootWrite 0 65536 [],
   .bootWrite 0 0 (List.replicate 65 0),
   .bootReadbackDone (List.replicate 65 0),
   .tickReport [],
   .tickReport (List.replicate 48 { verdict := .vacant, vacantRun := 256 }),
   .slotBoundary 65536 1,
   .slotBoundary 0 0,
   .slotBoundary 0 288,
   .bookingSlotRun 65536 0,
   .bookingSlotRun 0 289,
   .dispatcherSlotRun 289,
   .dayBoundary 65536,
   .withdrawNotice 768 none,
   .withdrawNotice 0 (some 289),
   .orderOutcomeNotice 768 0,
   .keyCheckIn { drop := { line := 0, addr := 0 }, room := none },
   .keyCheckIn { drop := { line := 0, addr := 16 }, room := none },
   .keyCheckIn { drop := { line := 0, addr := 1 }, room := some 48 },
   .keyEnd { drop := { line := 4, addr := 1 }, room := none },
   .keyExtend { drop := { line := 0, addr := 0 }, room := none },
   .walkup { drop := { line := 0, addr := 0 }, room := none } 1,
   .walkup { drop := { line := 0, addr := 1 }, room := none } 256,
   .sample { drop := { line := 0, addr := 0 }, room := none } 1,
   .sample { drop := { line := 0, addr := 1 }, room := none } 256,
   .entry { drop := { line := 0, addr := 0 }, room := none } true,
   .pantryStatus { line := 0, addr := 0 } { limit := 0, seq := none, nack := false, resyncAck := false, report := none },
   .replayTimerExpiry 8]

def illFormed4 : List Instr :=
  [.settlingEnd 4,
   .breakLowEnd 4,
   .breakQuietEnd 4,
   .powerFault 4,
   .walkPhase 4,
   .downFrameSent 4,
   .answerTimeout 4,
   .frameEndTimeout 4,
   .abandonedTurnEnd 4,
   .upFrameFirstByte 4,
   .upFrameReceived 4 [],
   .upFrameReceived 0 (List.replicate 245 0)]

/-- Every check refuses its term, and the same commands with operands in range pass. -/
theorem test_ill_formed_refused :
    (illFormed1 ++ illFormed2 ++ illFormed3 ++ illFormed4).all (fun c => !c.wellFormed) = true := by decide +kernel

/-- Operands at the ends of their ranges pass. -/
theorem test_well_formed_kept :
    ([.powerOn, .time 0 65535 65535 255, .book 0 47 { serverId := 1, day := 1, start := 65535, stop := 65535, organiser := none, orders := [{ id := 1, pantry := 7, deliverBy := 65535, cutoff := 65535, lines := List.replicate 8 { item := 4095, qty := 63 } }] },
      .contentDrop 0 { line := 3, addr := 15 } 0 (List.replicate 239 0), .slotBoundary 65535 287, .bookingSlotRun 0 288,
      .pantryStatus { line := 3, addr := 15 } { limit := 0, seq := none, nack := false, resyncAck := false, report := none },
      .upFrameReceived 3 (List.replicate 244 0)] : List Instr).all Instr.wellFormed = true := by decide +kernel

/-! ## The spec's worked cases -/

/-- Section 6.5: the check byte of 05 01, and the receiver's register over it. -/
theorem test_check_byte : checkByte [0x05, 0x01] = 0x91 ∧ checkByte [0x05, 0x01, 0x91] = 0 := by decide +kernel

/-- Section 8.5.1: the shares and counts of the six choices, with the two queues' lengths before each. -/
theorem test_arbiter_two_rounds :
    let choose (l o : Nat) := chooseShare (l = 0) (o = 0) 2 1
    choose 3 3 false 0 = (false, 0) ∧ choose 2 3 false 1 = (false, 1) ∧ choose 1 3 false 2 = (true, 0) ∧
    choose 1 2 true 1 = (false, 0) ∧ choose 0 2 false 1 = (true, 0) ∧ choose 0 1 true 1 = (true, 0) := by decide +kernel

/-- Section 4.5, a room filling: the value, verdict and vacant run after each tick. -/
theorem test_room_filling :
    let e0 : Evidence := { value := 0, peak := 200, sampleSeen := true, stale := 0, entryBump := true, verdict := .vacant,
                           vacantRun := 40 }
    let again (e : Evidence) : Evidence := Evidence.tick { e with sampleSeen := true } true RoomClass.reset
    let e1 := e0.tick true RoomClass.reset
    let e2 := again e1
    let e3 := again e2
    let e4 := again e3
    let e5 := again e4
    [e1, e2, e3, e4, e5].map (fun e => (e.value, e.verdict, e.vacantRun)) =
      [(5200, .vacant, 41), (7750, .vacant, 42), (9982, .vacant, 43), (11935, .vacant, 44), (13644, .occupied, 0)] := by
  decide +kernel

/-- Section 4.5, a room emptying: eleven ticks without the bump. -/
theorem test_room_emptying :
    let e0 : Evidence := { value := 25600, peak := 0, sampleSeen := true, stale := 0, entryBump := false,
                           verdict := .occupied, vacantRun := 0 }
    let again (e : Evidence) : Evidence := Evidence.tick { e with sampleSeen := true } true RoomClass.reset
    ((List.range 11).map fun n => (again^[n + 1] e0).value) =
      [22400, 19600, 17150, 15007, 13132, 11491, 10055, 8799, 7700, 6738, 5896] ∧
    (again^[10] e0).verdict = .occupied ∧ (again^[11] e0).verdict = .vacant := by decide +kernel

/-- Section 1.7: a forward step, a backward step, a step into the next day and a flush. -/
theorem test_clock_steps :
    let c : Clock := { isSet := true, seconds := 20, minute := 581, day := 412, periods := 0 }
    let late : Clock := { isSet := true, seconds := 10, minute := 1432, day := 412, periods := 0 }
    c.catchUp (c.classify 412 602 0) 412 602 0 =
      ([.bookingSlotRun 412 117, .dispatcherSlotRun 117, .bookingSlotRun 412 118, .dispatcherSlotRun 118,
        .bookingSlotRun 412 119, .dispatcherSlotRun 119, .bookingSlotRun 412 120, .dispatcherSlotRun 120], 4) ∧
    Clock.classify { c with minute := 602, seconds := 0 } 412 590 0 = .backward ∧
    late.catchUp (late.classify 413 7 30) 413 7 30 =
      ([.bookingSlotRun 412 287, .dispatcherSlotRun 287, .dayBoundary 412, .bookingSlotRun 413 1,
        .dispatcherSlotRun 1], 4) ∧
    late.classify 414 7 30 = .flush := by decide +kernel

/-- Section 1.7: boundary 118 ends record 40 and starts record 41, and its reply comes with the step's completion. -/
theorem test_forward_step_boundary :
    let s := (put 41 (booking 5 118 124 0 .booked) (put 40 { booking 5 108 118 0 .inUse with dirty := true } (clockAt 581)))
    let t := go (.bookingSlotRun 412 118) s
    ((t.res 40).map fun r => (r.state, r.endReason, r.closedAt)) =
      some (.ended, some .normalEnd, some { day := 412, slot := 118 }) ∧
    ((t.res 41).map Reservation.state) = some .due := by decide +kernel

/-- Section 8.3.1: the routes of the example. -/
theorem test_routing :
    let s : State := ({ ready with
      floor := { ready.floor with building := 3, floor := 12, windowLow := 8, windowHigh := 11 }
      roomMap := updAt ready.roomMap 5 fun _ => some { building := 3, floor := 12, room := 7 } }).modDrop
        { line := 2, addr := 4 } fun d => { d with kind := .roomPanel }
    let m (k : MsgKind) (d : Dest) (body : Bytes) : Msg := { kind := k, tag := 9, dest := d, body := body }
    s.routeOf (m .time (.floor 3 12) [1, 156, 2, 90, 0]) = .take (.time 9 412 602 0) ∧
    s.routeOf (m .read (.floor 3 10) []) = .forward ∧
    s.routeOf (m .read (.floor 3 14) []) = .answer .unroutable ∧
    s.routeOf (m .book (.room { building := 4, floor := 12, room := 7 }) []) = .answer .unroutable ∧
    s.routeOf (m .content (.room { building := 3, floor := 12, room := 33 }) []) = .answer .unknownRoom ∧
    s.routeOf (m .service (.drop 3 12 { line := 2, addr := 6 }) []) = .answer .badMessage ∧
    s.routeOf (m .content (.drop 3 12 { line := 2, addr := 4 }) [0, 65]) = .take (.contentDrop 9 { line := 2, addr := 4 } 0 [65]) ∧
    s.copies (m .control .broadcast []) = true := by decide +kernel

/-- The image of section 10.5: the header, five records and the end. -/
def image : Bytes :=
  [0xE4, 0x60, 0, 96,
   12, 0, 0, 3, 12, 8, 11, 2, 1, 0, 60, 0x9D, 0x4E,
   5, 1, 5, 1, 0x33, 0x07,
   17, 2, 2, 3, 1, 0, 6, 0, 3, 16, 32, 0x07, 0xD0, 0x2E, 0xE0, 0x17, 0x70, 0,
   5, 6, 2, 0x17, 30, 1,
   36, 5, 1, 1, 1,
   1, 2, 3, 4, 5, 6, 7, 8, 9, 10, 11, 12, 13, 14, 15, 16, 1, 2, 3, 4, 5, 6, 7, 8, 9, 10, 11, 12, 13, 14, 15, 16,
   0]

/-- Section 10.5: a load with two faults. -/
theorem test_boot_load :
    let s : State := { State.reset with bootMem := memWriteRun [] 0 image }
    let t := (List.replicate 6 Instr.bootRecordRead).foldl (fun u c => go c u) (go .bootHeaderRead s)
    (t.boot.load, t.boot.applied, t.boot.clamped, t.boot.skipped, t.boot.firstSkip) =
      (.partly, 4, 1, 1, some (23, .badTable)) ∧
    (t.floor.building, t.floor.floor, t.floor.windowLow, t.floor.windowHigh) = (3, 12, 8, 11) ∧
    t.roomMap[5]? = some (some { building := 3, floor := 12, room := 7 }) ∧ t.classes[2]? = some RoomClass.reset ∧
    (t.pantry 2).lead = 24 ∧ (t.pantry 2).drop = some { line := 1, addr := 7 } ∧ (t.line 1).state = .settling ∧
    t.riser.offlineTimer = some 60 ∧ (t.latch 120).causes = 4 := by decide +kernel

/-! ### A morning in one room (section 3.9), from the record numbers of the spec -/

def morning (minute : Nat) : State :=
  withDrop panel .roomPanel (some 11) none
    { clockAt minute with
      rooms := updAt ready.rooms 11 fun e => { e with cls := 2 }
      classes := updAt ready.classes 2 fun k => { k with grace := 2, clean := 1, presence := true } }

def fromPanel : FrameFrom := { drop := panel, room := none }

/-- An early check-in, and the boundary that starts its meeting. -/
theorem test_early_check_in :
    let s := go (.keyCheckIn fromPanel) (put 100 (booking 11 96 108 2 .booked) (morning 475))
    let t := go (.bookingSlotRun 88 96) s
    ((s.res 100).map fun r => (r.early, r.dirty, r.version)) = some (true, true, 1) ∧
    answered panel s = some (.granted 96 108) ∧
    ((t.res 100).map fun r => (r.state, r.checkIn, r.version)) =
      some (.inUse, some { slot := 96, how := .key }, 2) := by decide +kernel

/-- A walk-up in a tail window, a no-show at its grace expiry, and a check-in that is too late. -/
theorem test_no_show :
    let s := put 101 (booking 11 110 114 1 .due) (put 100 (booking 11 96 108 2 .ended) (morning 545))
    let t := go (.bookingSlotRun 88 112) (s.modEv 11 fun e => { e with verdict := .vacant })
    let late := { t with clock := { t.clock with minute := 563 } }
    answered panel (go (.walkup fromPanel 2) s) = some (.refused .bookedNow) ∧
    answered panel (go (.walkup fromPanel 2) (put 100 (booking 11 96 108 2 .ended) (morning 544))) =
      some (.refused .turnaround) ∧
    ((t.res 101).map fun r => (r.state, r.endReason, r.dirty, r.closedAt)) =
      some (.released, some .noShow, true, some { day := 88, slot := 112 }) ∧
    answered panel (go (.keyCheckIn fromPanel) late) = some (.refused .tooLate) := by decide +kernel

/-- A walk-up of two slots between a no-show and the next meeting. -/
theorem test_walkup :
    let s := put 104 (booking 11 124 130 1 .booked) (put 102 (booking 11 115 121 1 .booked)
      (put 101 (booking 11 110 114 1 .released) (morning 564)))
    let t := go (.walkup fromPanel 6) s
    answered panel t = some (.granted 112 114) ∧
    ((t.res 0).map fun r => (r.origin, r.state, r.tail)) = some (.panel, .inUse, 1) ∧
    ((t.res 0).map fun r => (r.checkIn, r.version, r.dirty)) = some (some { slot := 112, how := .key }, 0, true) ∧
    (t.room 11).today = [101, 0, 102, 104] := by decide +kernel

/-! ### An order through NACK, replay and cancel (section 5.11) -/

def terminal : DropCode := { line := 1, addr := 7 }

def anOrder (id : OrderId) (res deliverBy cutoff : Nat) (st : OrderState) : Order :=
  { id := id, res := res, pantry := 2, deliverBy := deliverBy, cutoff := cutoff, lines := [{ item := 1, qty := 1 }],
    late := false, cancelPending := false, state := st, refuseReason := none, seq := none }

def kitchen : State :=
  put 211 (booking 6 112 120 0 .booked) (put 210 { booking 5 108 120 0 .due with orders := [5120, 5121] }
    (withDrop terminal .pantry none (some 2)
      { clockAt 540 with
        orders := [anOrder 5120 210 108 108 .accepted, anOrder 5121 210 116 112 .held, anOrder 5130 211 112 112 .queued]
        pantries := updAt ready.pantries 2 fun p => { p with
          drop := some terminal, lead := 8, link := .up, nextSeq := 17, consumed := 41, limit := 42
          dispatch := [5130] } }))

def status44 (seq : Option Byte) (nack : Bool) (report : Option PantryReport) : Instr :=
  .pantryStatus terminal { limit := 44, seq := seq, nack := nack, resyncAck := false, report := report }

def afterTurnA : State :=
  go (status44 none false (some { order := 5120, refuse := none })) ((go (.dispatcherSlotRun 108) kitchen).dropFrame terminal).1

def afterTurnB : State := go (status44 (some 17) true none) (afterTurnA.dropFrame terminal).1

def states (s : State) : List OrderState := s.orders.map Order.state

/-- Boundary 108 and turn A: the window opens behind the queued order, the head goes out, and READY settles 5120. -/
theorem test_dispatch_and_credit :
    ((go (.dispatcherSlotRun 108) kitchen).pantry 2).dispatch = [5130, 5121] ∧
    (let p := afterTurnA.pantry 2
     p.replay = [{ kind := .order, seq := 17, order := some 5130 }] ∧ p.nextSeq = 18 ∧ p.consumed = 42 ∧ p.credit = 2 ∧
      p.dispatch = [5121] ∧ p.replayTimer = some (.start 1) ∧ p.taken = some 5120) ∧
    states afterTurnA = [.delivered, .queued, .sent] := by decide +kernel

/-- Turns B and C: the NACK starts a replay, and the ACK of the resent frame is progress. -/
theorem test_nack_and_replay :
    (let p := afterTurnB.pantry 2
     p.replay.map ReplayFrame.seq = [17, 18] ∧ p.replayPos = some 0 ∧ p.replayCount = 1 ∧ p.credit = 1) ∧
    (let t := go (status44 (some 17) false none) (afterTurnB.dropFrame terminal).1
     (t.pantry 2).replay.map ReplayFrame.seq = [18] ∧ (t.pantry 2).replayPos = some 0 ∧ (t.pantry 2).replayCount = 0 ∧
      states t = [.delivered, .sent, .accepted]) := by decide +kernel

/-- The release of record 210: DELIVERED goes to WASTED, SENT before its cutoff to CANCEL_PENDING. -/
theorem test_withdrawal_notice :
    let s := afterTurnB.modRes 210 fun r => { r with state := .released }
    let t := go (.withdrawNotice 210 (some 110)) s
    states t = [.wasted, .cancelPending, .sent] ∧ (t.pantry 2).cancels = [5121] := by decide +kernel

/-! ### The store (section 2.8) -/

/-- A full room list: the candidate closed first gives way, and its index is used again. -/
theorem test_reclaim_order :
    let closed (i start stop slot : Nat) (st : ResState) (s : State) : State :=
      put i { booking 9 start stop 1 st with closedAt := some { day := 412, slot := slot } } s
    let s := closed 152 164 171 171 .ended (closed 131 160 167 166 .ended (closed 118 150 156 98 .cancelled (clockAt 860)))
    s.earliest [118, 131, 152] = some 118 ∧ s.isCandidate 152 = true ∧
    { s with clock := { s.clock with minute := 855 } }.isCandidate 152 = false := by decide +kernel

/-- A dirty record through the exchange: a stale version, and MARK_CLEAN. -/
theorem test_dirty_exchange :
    let s := put 118 { booking 9 172 174 1 .inUse with dirty := true, version := 1 } (clockAt 860)
    answers (go (.markClean 1 118 0) s) = [(.staleVersion, .version 1)] ∧
    ((go (.markClean 1 118 1) s).res 118).map (fun r => (r.dirty, r.version)) = some (false, 1) := by decide +kernel

/-! ## Witnesses: states and operands that meet the hypotheses of each statement, clause by clause -/

/-- A request can be taken by a part out of reset whose boot load has ended and whose local transmit queue has a free
entry. -/
theorem accepts_of {s : State} {k : MsgKind} {tag : Tag} (h1 : s.atRest) (h2 : s.loading = false)
    (h3 : 0 < s.freeEntries) : s.accepts k tag :=
  ⟨h1, h2, by simp [State.canReply, h3]⟩

theorem inTurn_of {s : State} (h : s.due = []) (c : Instr) : s.inTurn c := by simp [State.inTurn, State.ahead, h]

theorem manages_of {s : State} {c : Instr} {k : MsgKind} {tag : Tag} (h1 : s.atRest) (h2 : s.loading = false)
    (h3 : 0 < s.freeEntries) (h4 : s.restart = none) (h5 : s.due = []) : s.manages c k tag :=
  ⟨accepts_of h1 h2 h3, h4, inTurn_of h5 c⟩

theorem ready_manages (c : Instr) (k : MsgKind) (tag : Tag) : ready.manages c k tag :=
  manages_of ⟨rfl, rfl⟩ rfl (by decide) rfl rfl

/-- The witness for every statement about a request to the Management Engine: LOADs, READs, LIST_DIRTY, MARK_CLEAN,
CONTROLs, CLEAR, BOOT_WRITE and RESTART are taken by the part as `ready` leaves it. -/
theorem witness_manages :
    ready.manages (.loadFloorRecord 1 0 ready.floor) .load 1 ∧ ready.manages (.readLine 1 true 3) .read 1 ∧
    ready.manages (.listDirty 1 767) .listDirty 1 ∧ ready.manages (.markClean 1 767 0) .markClean 1 ∧
    ready.manages (.roomClose 1 47) .control 1 ∧ ready.manages (.clear 1 120) .clear 1 ∧
    ready.manages (.bootWrite 1 8191 [0]) .bootWrite 1 ∧ ready.manages (.restart 1) .restart 1 :=
  ⟨ready_manages _ _ _, ready_manages _ _ _, ready_manages _ _ _, ready_manages _ _ _, ready_manages _ _ _,
   ready_manages _ _ _, ready_manages _ _ _, ready_manages _ _ _⟩

def heldLow : State := { ready with resetLow := true }

theorem witness_HeldLowChangesNothing :
    heldLow.resetLow = true ∧ Instr.routeMessage ≠ .powerOn ∧ Instr.routeMessage ≠ .resetInput ∧
    Instr.routeMessage ≠ .resetInputHeldLow ∧ (∀ up, Instr.routeMessage ≠ .uplinkLinkChange up) ∧
    ∀ up, Instr.routeMessage ≠ .onwardLinkChange up := by decide

/-- A RESTART whose reply is in transmission. -/
def restarting : State :=
  { ready with
    restart := some 5
    riser := { ready.riser with uplinkUp := true, uplinkTx := some (.own (.reply 0 0 5 .restart .ok .none)) } }

/-- A write in flight at an offset, its pages written or not. -/
def writing (offset written : Nat) (back : Bool) : State :=
  { ready with boot := { ready.boot with
    write := some { tag := 1, offset := offset, run := [1, 2, 3], written := written, readback := back } } }

theorem witness_ResetsTakeEveryBlockBack :
    restarting.atRest ∧ restarting.restart = some 5 ∧
    restarting.riser.uplinkTx = some (.own (.reply 0 0 5 .restart .ok .none)) ∧
    (writing 62 0 false).boot.write = some { tag := 1, offset := 62, run := [1, 2, 3], written := 0, readback := false } ∧
    31 < pageBase (62 + 0) ∧ pageBase (62 + 0) + 32 ≤ 64 ∧ (writing 62 3 true).boot.write.all Write.readback = true := by
  decide +kernel

/-- A part whose boot memory holds some bytes, at the start of its boot load or at a record. -/
def imageOf (bytes : Bytes) : State := { State.reset with bootMem := memWriteRun [] 0 bytes }

def atRecord (bytes : Bytes) (limit : Nat) : State :=
  { imageOf bytes with boot := { Boot.reset with phase := .records 4 limit false } }

theorem witness_BootHeaderIsJudged :
    State.reset.atRest ∧ State.reset.boot.phase = .header ∧ memRead State.reset.bootMem 0 ≠ 0xE4 ∧
    ([[0xE4, 0x60, 0x1F, 0xFD], [0xE4, 0x60, 0, 0], [0xE4, 0x60, 0, 1], [0xE4, 0x60, 0x1F, 0xFC]].map fun bs =>
      let m := (imageOf bs).bootMem
      (memRead m 0, memRead m 1, (memRead m 2).toNat * 256 + (memRead m 3).toNat)) =
        [(0xE4, 0x60, 8189), (0xE4, 0x60, 0), (0xE4, 0x60, 1), (0xE4, 0x60, 8188)] ∧
    (imageOf [0xE4, 0x60, 0, 1]).boot.phase = .header ∧ (atRecord [] 5).boot.phase = .records 4 5 false := by
  decide +kernel

theorem witness_BootRecordIsDealtWith :
    (atRecord [0, 0, 0, 0, 0] 5).boot.phase = .records 4 5 false ∧ (atRecord [0, 0, 0, 0, 0] 5).atRest ∧
    memRead (atRecord [0, 0, 0, 0, 0] 5).bootMem 4 = 0 ∧ memRead (atRecord [0, 0, 0, 0, 3] 7).bootMem 4 = 3 ∧
    parseLoad (memReadRun (atRecord [0, 0, 0, 0, 3, 7, 0, 0] 8).bootMem 5 3) = none ∧
    parseLoad (memReadRun (atRecord [0, 0, 0, 0, 3, 3, 47, 7] 8).bootMem 5 3) = some (.roomTable 47 7) ∧
    ((atRecord [] 8).load (.roomTable 47 7)).toBool = true ∧ ((atRecord [] 8).load (.roomTable 48 7)).toBool = false := by
  decide +kernel

theorem witness_EndOfBootLoad :
    (State.reset.line 3).state = .off ∧ (State.reset.latch 120).isSet = false := by decide +kernel

/-- A TIME request for floor 0.0, as it arrives. -/
def timeMessage : Bytes := [1, 6, 0, 9, 0, 0, 0, 0, 5, 1, 156, 2, 90, 0]

/-- A READ for a floor of building 0. -/
def readMessage (floor : Byte) : Bytes := [1, 8, 0, 9, 0, floor <<< 6, 0, 0, 4, 0, 0, 0, 0]

def received (ms : List Bytes) (s : State) : State := { s with riser := { s.riser with receive := ms } }

/-- The local transmit queue without a free entry. -/
def full (s : State) : State :=
  { s with riser := { s.riser with localQueue := List.replicate 32 (.event 0 0 0 1 1 none none) } }

theorem witness_UplinkArrivalIsTaken :
    ready.atRest ∧ (0x9D4F : Nat) ≠ ready.floor.riserType ∧ parseMessage [] = none ∧
    parseMessage timeMessage = some { dest := .floor 0 0, kind := .time, tag := 9, body := [1, 156, 2, 90, 0] } ∧
    (parseMessage [0, 0x82, 0, 0, 0, 0, 0, 0, 0]).map (fun m => m.kind.upward) = some true ∧
    (received (List.replicate 7 timeMessage) ready).riser.receive.length < 8 ∧
    8 ≤ (received (List.replicate 8 timeMessage) ready).riser.receive.length := by decide +kernel

theorem witness_OnwardArrivalIsForwarded :
    parseMessage timeMessage ≠ none ∧ ready.riser.upwardQueue.length < 16 ∧
    16 ≤ ({ ready with riser := { ready.riser with upwardQueue := List.replicate 16 timeMessage } }).riser.upwardQueue.length := by
  decide +kernel

/-- A part on floor 0.0 with room 0.0.7 at index 47, an onward window 1..3, and a room panel. -/
def routing : State :=
  withDrop panel .roomPanel (some 47) none { ready with
    floor := { ready.floor with windowLow := 1, windowHigh := 3 }
    roomMap := updAt ready.roomMap 47 fun _ => some { building := 0, floor := 0, room := 7 } }

def room7 : RoomCode := { building := 0, floor := 0, room := 7 }

theorem witness_RouteFollowsDestination :
    routing.loading = false ∧ (1 : Nat) ≠ routing.floor.building ∧ routing.floor.windowLow ≤ 1 ∧ 3 ≤ routing.floor.windowHigh ∧
    routing.floor.windowHigh < 4 ∧ (∀ i : Nat, i < 48 → routing.roomMap[i]? ≠ some (some { room7 with room := 8 })) ∧
    routing.roomMap[47]? = some (some room7) ∧ (∀ j : Nat, j < 48 → routing.roomMap[j]? = some (some room7) → j = 47) ∧
    parseWithdraw [0, 2, 255] = some (.index 767) ∧ validDrop { line := 0, addr := 0 } = false ∧
    (routing.drop { line := 0, addr := 2 }).kind = .unused ∧ validDrop panel = true ∧ (routing.drop panel).kind ≠ .unused := by
  decide +kernel

theorem witness_RouteMessageTakesOrHoldsOldest :
    let held := received [timeMessage] (full routing)
    let own := received [timeMessage] routing
    let far (n : Nat) := received [readMessage 1] { routing with riser := { routing.riser with
      onwardQueue := List.replicate n timeMessage } }
    let m : Msg := { dest := .floor 0 0, kind := .time, tag := 9, body := [1, 156, 2, 90, 0] }
    let r : Msg := { dest := .floor 0 1, kind := .read, tag := 9, body := [0, 0, 0, 0] }
    held.atRest ∧ held.loading = false ∧ parseMessage timeMessage = some m ∧ (held.routeOf m).needsReply = true ∧
    held.freeEntries = 0 ∧ 0 < own.freeEntries ∧ own.riser.online = true ∧ own.routeOf m = .take (.time 9 412 602 0) ∧
    parseMessage (readMessage 1) = some r ∧ (far 15).routeOf r = .forward ∧ (far 15).riser.onwardQueue.length < 16 ∧
    (far 16).routeOf r = .forward ∧ 16 ≤ (far 16).riser.onwardQueue.length := by decide +kernel

/-- The uplink up and free, with one reply to send. -/
def sending : State :=
  { ready with riser := { ready.riser with
    uplinkUp := true, onwardUp := true, shareCount := 1, localQueue := [.reply 0 0 1 .read .ok .none]
    onwardQueue := [timeMessage] } }

theorem witness_TransmittersTakeOldestMessages :
    sending.atRest ∧ sending.restart = none ∧ ready.riser.uplinkUp = false ∧ restarting.riser.uplinkTx ≠ none ∧
    ready.riser.onwardUp = false ∧ sending.riser.onwardUp = true ∧ sending.riser.onwardTx = none ∧
    sending.riser.onwardQueue = [timeMessage] ∧ sending.riser.uplinkUp = true ∧ sending.riser.uplinkTx = none ∧
    sending.riser.localQueue = [.reply 0 0 1 .read .ok .none] ∧ sending.riser.upwardQueue = [] ∧
    sending.riser.shareOnward = false ∧ sending.riser.shareCount < sending.floor.localWeight ∧
    sending.riser.shareCount < 15 ∧ 0 < sending.freeEntries := by decide +kernel

theorem witness_OnlineStateFollowsTimerAndMessages :
    let left (n : Option Nat) : State := { routing with riser := { routing.riser with offlineTimer := n } }
    let off : State := { routing with riser := { routing.riser with online := false } }
    (left (some 1)).loading = false ∧ (left (some 1)).atRest ∧ (left (some 1)).riser.online = true ∧
    (left (some 1)).riser.offlineTimer = some 1 ∧ (left (some 2)).riser.offlineTimer = some 2 ∧
    (left none).riser.offlineTimer = none ∧ (left none).isOwn .broadcast = true ∧ off.isOwn (.floor 0 0) = true ∧
    off.riser.online = false ∧ off.loading = false ∧ off.isOwn (.floor 0 1) = false ∧ 1 < off.floor.offlineTimeout ∧
    (off.drop panel).kind = .roomPanel ∧ validDrop panel = true := by decide +kernel

/-- R179: a message for this floor taken before an expiry leaves no expiry for the old start. -/
theorem test_no_expiry_for_old_start :
    let s : State := { routing with riser := { routing.riser with offlineTimer := some 0 } }
    (go .offlineTimerExpiry s).riser.online = false ∧
    (go .offlineTimerExpiry (go (.uplinkArrival 0x9D4E timeMessage) s)).riser.online = true := by decide +kernel

/-! ### Booking -/

def bookReq (day start stop : Nat) (orders : List OrderReq) : BookReq :=
  { serverId := 9, day := day, start := start, stop := stop, organiser := none, orders := orders }

def orderReq : OrderReq := { id := 77, pantry := 2, deliverBy := 287, cutoff := 288, lines := [{ item := 4095, qty := 63 }] }

theorem witness_BookMakesItsRecord :
    let s := put 0 (booking 47 0 287 0 .released) kitchen
    let req := bookReq 0 287 288 [orderReq]
    s.accepts .book 1 ∧ s.catchUp = false ∧ bookReqOk req = true ∧ dayOf req.day = some .today ∧ s.clock.isSet = true ∧
    s.badWindow req = false ∧ s.reached req.stop = false ∧ (s.room 47).service = .opened ∧
    s.duplicateId 47 .today req = false ∧
    s.conflict 47 .today 287 288 ((s.classOf 47).turnaround + (s.classOf 47).clean) none = none ∧
    s.allocate 47 .today 1 = .ok { index := 1, reclaim := none } :=
  ⟨accepts_of ⟨rfl, rfl⟩ rfl (by decide +kernel), by decide +kernel⟩

/-- A TODAY list of 32 live records, none of which can give way. -/
def fullList : State :=
  { (clockAt 600).modRoom 47 (fun e => { e with today := List.replicate 32 3 }) with
    pool := updAt ready.pool 3 fun _ => some (booking 47 0 1 0 .cancelled |> fun r => { r with dirty := true }) }

theorem witness_BookRefusalsInOrder :
    let s := put 3 (booking 47 120 124 0 .booked) (clockAt 600)
    ready.accepts .book 1 ∧ s.accepts .book 1 ∧ fullList.accepts .book 1 ∧ bookReqOk (bookReq 2 0 1 []) = false ∧
    ready.catchUp = false ∧ ready.clock.isSet = false ∧ s.clock.isSet = true ∧ dayOf 0 = some .today ∧
    s.badWindow (bookReq 0 288 289 []) = true ∧ s.badWindow (bookReq 0 287 288 []) = false ∧
    s.reached (bookReq 0 119 120 []).stop = true ∧ s.reached (bookReq 0 120 121 []).stop = false ∧
    ((s.modRoom 47 fun e => { e with service := .closing }).room 47).service ≠ .opened ∧
    s.duplicateId 47 .today { bookReq 0 130 131 [] with serverId := 7 } = true ∧
    s.duplicateId 47 .today (bookReq 0 123 131 []) = false ∧ s.conflict 47 .today 123 131 1 none = some 3 ∧
    s.conflict 47 .today 124 131 1 none = none ∧ fullList.conflict 47 .today 124 131 1 none = none ∧
    fullList.allocate 47 .today 0 = .error .roomListFull :=
  ⟨accepts_of ⟨rfl, rfl⟩ rfl (by decide +kernel), accepts_of ⟨rfl, rfl⟩ rfl (by decide +kernel), accepts_of ⟨rfl, rfl⟩ rfl (by decide +kernel),
   by decide +kernel⟩

theorem witness_ConflictIsFirstMeetingWindow :
    [ResState.booked, .due, .inUse, .ended, .released, .cancelled].map (fun st => (booking 0 1 2 1 st).state) =
      [.booked, .due, .inUse, .ended, .released, .cancelled] := by decide

def alterReq (s e : Option Nat) : AlterReq := { ref := .index 3, newStart := s, newEnd := e }

theorem witness_AlterGivesTheWindow :
    let r := booking 47 130 140 1 .booked
    let s := put 4 (booking 47 150 160 1 .booked) (put 3 r (clockAt 600))
    let unset : State := { s with clock := Clock.reset }
    let shut := s.modRoom 47 fun e => { e with service := .closed }
    let ended := put 3 (booking 47 130 140 1 .ended) (clockAt 600)
    s.accepts .alter 1 ∧ s.restart = none ∧ s.catchUp = false ∧ alterFormOk none (alterReq none none) = false ∧
    alterFormOk none (alterReq (some 120) none) = true ∧
    (ready.resolve none (alterReq (some 120) none).ref).toBool = false ∧
    s.resolve none (alterReq (some 120) none).ref = .ok (3, r) ∧ s.res 3 = some r ∧
    s.alterChecks 3 r (alterReq (some 119) (some 121)) = .ok (119, 121) ∧
    s.alterChecks 3 r (alterReq (some 130) none) = .ok (130, 140) ∧
    (unset.alterChecks 3 r (alterReq (some 120) none)).toBool = false ∧ unset.clock.isSet = false ∧
    (ended.resolve none (.index 3)).toBool = true ∧ ResState.ended.live = false ∧
    (s.alterWindow r (alterReq (some 287) (some 289))) = (287, 289) ∧ s.reached 120 = true ∧ s.reached 121 = false ∧
    (shut.room 47).service ≠ .opened ∧ s.conflict 47 .today 130 150 1 (some 3) = some 4 ∧
    s.conflict 47 .today 130 149 1 (some 3) = none :=
  ⟨accepts_of ⟨rfl, rfl⟩ rfl (by decide +kernel), by decide +kernel⟩

theorem witness_WithdrawCancelsItsRecord :
    let r := { booking 47 130 140 1 .inUse with orders := [77] }
    let s := put 767 r (clockAt 600)
    let past := put 767 { r with day := .past } (clockAt 600)
    s.accepts .withdraw 1 ∧ s.restart = none ∧ s.catchUp = false ∧ refFormOk none (.index 768) = false ∧
    refFormOk none (.index 767) = true ∧ (ready.resolve none (.index 767)).toBool = false ∧
    s.resolve none (.index 767) = .ok (767, r) ∧ s.res 767 = some r ∧ r.state.live = true ∧ r.day ≠ .past ∧
    past.resolve none (.index 767) = .ok (767, { r with day := .past }) :=
  ⟨accepts_of ⟨rfl, rfl⟩ rfl (by decide +kernel), by decide +kernel⟩

/-! ### CONTENT and SERVICE -/

def fifoOf (n : Nat) (s : State) : State :=
  s.modDrop panel fun d => { d with fifo := List.replicate n (.service []) }

theorem witness_ContentReachesTheRoomsPanels :
    let free (s : State) := ((s.boundPanels 47).filter fun d => decide ((s.drop d).mode ≠ .isolated)).filter fun d =>
      decide ((s.drop d).fifo.length < 4)
    ready.accepts .content 1 ∧ (ready.boundPanels 47) = [] ∧ (List.replicate 239 (0 : Byte)).length ≤ 239 ∧
    (fifoOf 4 routing).boundPanels 47 = [panel] ∧ ((fifoOf 4 routing).drop panel).mode ≠ .isolated ∧
    free (fifoOf 4 routing) = [] ∧ free (fifoOf 3 routing) = [panel] :=
  ⟨accepts_of ⟨rfl, rfl⟩ rfl (by decide), by decide +kernel⟩

theorem witness_ContentAndServiceReachTheDrop :
    let isolated := routing.modDrop panel fun d => { d with mode := .isolated }
    routing.accepts .content 1 ∧ routing.accepts .service 1 ∧ validDrop panel = true ∧
    (routing.drop { line := 3, addr := 15 }).kind ≠ .roomPanel ∧ (routing.drop panel).kind = .roomPanel ∧
    (isolated.drop panel).mode = .isolated ∧ ((fifoOf 3 routing).drop panel).fifo.length < 4 ∧
    4 ≤ ((fifoOf 4 routing).drop panel).fifo.length ∧ (kitchen.drop terminal).kind = .pantry :=
  ⟨accepts_of ⟨rfl, rfl⟩ rfl (by decide +kernel), accepts_of ⟨rfl, rfl⟩ rfl (by decide +kernel), by decide +kernel⟩

/-! ### The clock -/

/-- A TIME step under way, with its boundaries run. -/
def stepping : State :=
  { clockAt 602 with
    timeStep := some { tag := 9, kind := .forward, day := 412, minute := 602, seconds := 0, boundaries := 4 }
    due := [.timeStepComplete]
    riser := { ready.riser with reservations := [(.time, 9)] } }

theorem witness_TimeStepsAndTheirReply :
    ready.accepts .time 9 ∧ ready.clockBusy = false ∧ stepping.clockBusy = true ∧ stepping.atRest ∧
    stepping.timeStep.isSome = true ∧ stepping.due.any isBoundaryWork = false ∧ ready.clock.isSet = false ∧
    (clockAt 1439).clock.isSet = true ∧ (412 + 1) % 65536 = (413 : Nat) ∧ (65535 + 1) % 65536 = (0 : Nat) :=
  ⟨accepts_of ⟨rfl, rfl⟩ rfl (by decide), by decide +kernel⟩

theorem witness_CatchUpRunsSkippedBoundaries :
    (clockAt 1439).clock.ok ∧ (1439 : Nat) < 1440 ∧ (59 : Nat) < 60 := by unfold Clock.ok; decide +kernel

theorem witness_ClockSecondRaisesItsBoundaries :
    State.reset.atRest ∧ State.reset.loading = true ∧ (clockAt 1439).loading = false ∧ (clockAt 1439).clock.ok ∧
    (clockAt 1439).clock.isSet = true := by unfold Clock.ok; decide +kernel

theorem witness_BookingRunHasThreePhases :
    let r := booking 47 118 120 0
    let s (st : ResState) (v : Verdict) := (put 3 (r st) (clockAt 600)).modEv 47 fun e => { e with verdict := v }
    let early := put 3 { r .booked with early := true } (clockAt 590)
    (s .inUse .vacant).atRest ∧ (s .due .vacant).res 3 = some (r .due) ∧ (r .due).stop = 120 ∧
    ((s .due .noSensor).ev 47).verdict = .noSensor ∧ ((s .due .occupied).ev 47).verdict = .occupied ∧
    ((s .due .unknown).ev 47).verdict = .unknown ∧ ((s .due .vacant).classOf 47).grace = 3 ∧
    ((s .due .vacant).classOf 47).presence = false ∧ (r .booked).start = 118 ∧ early.res 3 = some { r .booked with early := true } ∧
    (((s .booked .vacant).modRoom 47 fun e => { e with service := .closing }).room 47).service ≠ .opened := by
  decide +kernel

theorem witness_DispatcherRunOpensWindows :
    kitchen.atRest ∧ (kitchen.order 5121).map Order.state = some .held ∧
    (kitchen.order 5121).bind kitchen.orderDay = some .today := by decide +kernel

theorem witness_DayBoundaryHasThreeParts : (clockAt 0).atRest ∧ (clockAt 0).clock.isSet = true := by
  decide +kernel

/-! ### Loads and reads -/

theorem witness_LoadsOfRoomTables :
    let s := put 3 (booking 47 118 120 0 .booked) routing
    s.manages (.loadRoomMap 1 47 (some room7)) .load 1 ∧ s.roomMap[47]? = some (some room7) ∧ s.roomMap[0]? ≠ some (some room7) ∧
    s.res 3 = some (booking 47 118 120 0 .booked) ∧ (s.room 47).today ++ (s.room 47).next = [3] ∧
    (s.room 0).today ++ (s.room 0).next = [] ∧ room7.building = s.floor.building ∧ room7.room ≤ 63 ∧
    (s.drop panel).kind = .roomPanel ∧ (s.drop panel).room = some 47 ∧ (s.room 47).cls = 0 :=
  ⟨manages_of ⟨rfl, rfl⟩ rfl (by decide +kernel) rfl rfl, by decide +kernel⟩

def classLoad : RoomClassLoad :=
  { grace := 6, turnaround := 6, clean := 6, walkupMax := 12, presence := 1, autoEnd := 255, weight := 255, decay := 255,
    bump := 4095, tOn := 65535, tOff := 65534, closedAtStart := 1 }

/-- The ranges of a Room Class LOAD at their ends: a class, and A of 5 and T_off at T_on, which are none (R3). -/
theorem witness_LoadsOfRoomTables_class :
    (roomClassOf classLoad).isSome = true ∧ roomClassOf { classLoad with autoEnd := 5 } = none ∧
    (roomClassOf { classLoad with autoEnd := 6 }).isSome = true ∧ roomClassOf { classLoad with tOff := 65535 } = none ∧
    roomClassOf { classLoad with walkupMax := 13 } = none := by decide +kernel

theorem witness_LoadsOfFloorAndPantry :
    let f : FloorRecord := { ready.floor with localWeight := 15, offlineTimeout := 600, riserType := 0x0600 }
    ready.manages (.loadFloorRecord 1 0 f) .load 1 ∧
    kitchen.manages (.loadPantryConfig 1 2 { drop := some terminal, lead := 25, timeoutCode := 3 }) .load 1 ∧
    floorRecordOk f = true ∧ floorRecordOk { f with offlineTimeout := 605 } = false ∧
    floorRecordOk { f with riserType := 0x05FF } = false ∧ floorRecordOk { f with localWeight := 16 } = false ∧
    (kitchen.pantry 2).drop = some terminal ∧ validDrop terminal = true ∧ (kitchen.pantry 2).link ≠ .down ∧
    (ready.pantry 7).link = .down ∧ (ready.pantry 7).drop = none ∧ kitchen.servingDrop 2 = some terminal ∧
    (kitchen.drop terminal).present = true ∧ (kitchen.drop terminal).mode = .normal ∧
    (({ kitchen with pantries := updAt kitchen.pantries 2 fun p => { p with link := .down } }).pantry 2).link = .down :=
  ⟨ready_manages _ _ _, manages_of ⟨rfl, rfl⟩ rfl (by decide +kernel) rfl rfl, by decide +kernel⟩

theorem witness_LoadsOfDropAndLine :
    let s := routing.modDrop panel fun d => { d with mode := .isolated }
    s.manages (.loadDropTable 1 panel { kind := 0, room := none, pantry := none }) .load 1 ∧ dropKindOf 3 = some .pantry ∧ dropKindOf 4 = none ∧ validDrop panel = true ∧
    (s.drop panel).kind = .roomPanel ∧ (s.drop panel).room = some 47 ∧ (s.drop panel).mode = .isolated ∧
    (routing.drop panel).mode ≠ .isolated ∧ (s.drop panel).reported = some .roomPanel ∧ phaseOf 33 = none ∧ phaseOf 16 ≠ none ∧
    phaseOf 32 = some .empty ∧ phaseOf 15 = some (.address 15) ∧ (List.replicate 32 32).length = 32 :=
  ⟨manages_of ⟨rfl, rfl⟩ rfl (by decide +kernel) rfl rfl, by decide +kernel⟩

theorem witness_ReadsReturnRecordsAsTheyStand :
    routing.roomMap[47]? = some (some room7) ∧ routing.classes[7]? = some RoomClass.reset ∧ routing.roomMap[48]? = none ∧
    routing.classes[8]? = none ∧ (put 767 (booking 5 1 2 0 .booked) ready).res 767 = some (booking 5 1 2 0 .booked) ∧
    ready.res 767 = none ∧ (kitchen.order 5121).isSome = true ∧ kitchen.order 1 = none := by decide +kernel

theorem witness_ReadAndClearZeroesCounters :
    validDrop { line := 3, addr := 15 } = true ∧ validDrop { line := 3, addr := 16 } = false ∧
    validDrop { line := 0, addr := 0 } = false := by decide

theorem witness_MarkCleanNeedsTheVersion :
    let r := { booking 5 1 2 0 .booked with dirty := true, version := 3 }
    (put 767 r ready).res 767 = some r ∧ r.dirty = true ∧ r.version ≠ 4 ∧ r.version = 3 ∧ ready.res 767 = none ∧
    (put 767 { r with dirty := false } ready).res 767 = some { r with dirty := false } := by decide +kernel

/-! ### Lines, drops, rooms and pantries -/

def lineIn (st : LineState) (low : Bool) : State := ready.modLine 3 fun x => { x with state := st, breakLow := low }

theorem witness_LineStatesAndPower :
    [LineState.off, .settling, .breaking, .running, .fault].map (fun st => ((lineIn st true).line 3).state) =
      [.off, .settling, .breaking, .running, .fault] ∧ ((lineIn .breaking true).line 3).breakLow = true ∧
    ((lineIn .breaking false).line 3).breakLow = false ∧ (lineIn .off false).atRest ∧
    (lineIn .running false).restart = none ∧ (lineIn .running false).due = [] ∧ (lineIn .running false).loading = false ∧
    0 < (lineIn .running false).freeEntries := by decide +kernel

theorem witness_LeavingRunningLosesTheDrops :
    (kitchen.drop terminal).present = true ∧ kitchen.servedPantry terminal = some 2 ∧ terminal.line ≤ 3 ∧
    panel.line ≠ terminal.line ∧ (15 : Nat) ≤ 15 := by decide +kernel

theorem witness_DropModeIsCheckedAndTaken :
    let shadow := kitchen.modDrop terminal fun d => { d with mode := .shadow }
    let absent := kitchen.modDrop terminal fun d => { d with present := false }
    let other := kitchen.modDrop terminal fun d => { d with reported := some .roomPanel }
    let busy := kitchen.modLine 1 fun x => { x with turn := some { addr := 7, probe := false, timeout := 4, waits := 0, abandoned := false
                                                                   stage := .waiting, frame := .probe } }
    kitchen.manages (.dropMode 1 terminal 3) .control 1 ∧ dropModeOf 3 = some .shadow ∧ dropModeOf 4 = none ∧ validDrop terminal = true ∧
    (kitchen.drop { line := 1, addr := 8 }).kind = .unused ∧ (absent.drop terminal).present = false ∧
    (other.drop terminal).reported ≠ some (other.drop terminal).kind ∧ (kitchen.line 1).state = .running ∧
    (kitchen.drop terminal).reported = some (kitchen.drop terminal).kind ∧ (kitchen.drop terminal).mode = .normal ∧
    (shadow.drop terminal).mode = .shadow ∧ (kitchen.drop terminal).inFlight = .none ∧
    (busy.turnOf 1).map Turn.addr = some terminal.addr ∧ kitchen.servedPantry terminal = some 2 :=
  ⟨manages_of ⟨rfl, rfl⟩ rfl (by decide +kernel) rfl rfl, by decide +kernel⟩

theorem witness_RoomServiceControls :
    let s (st : ResState) := put 3 (booking 47 118 124 0 st) (clockAt 600)
    let shut := (clockAt 600).modRoom 47 fun e => { e with service := .closed }
    (s .due).manages (.roomClose 1 47) .control 1 ∧ (s .due).catchUp = false ∧ (shut.room 47).service ≠ .opened ∧
    ((s .due).room 47).service = .opened ∧ (clockAt 600).current 47 = none ∧
    (s .due).current 47 = some (3, booking 47 118 124 0 .due) ∧
    (s .inUse).current 47 = some (3, booking 47 118 124 0 .inUse) :=
  ⟨manages_of ⟨rfl, rfl⟩ rfl (by decide +kernel) rfl rfl, by decide +kernel⟩

def linkIn (l : LinkState) (count : Nat) : State :=
  kitchen.modPantry 2 fun p => { p with
    link := l, replayCount := count, replayTimer := some { left := 1000, period := 2000 }, replay := [{ kind := .order, seq := 16, order := some 5130 }] }

theorem witness_PantryLinkResyncAndFault :
    [LinkState.down, .syncing, .up, .faulted].map (fun l => ((linkIn l 0).pantry 2).link) = [.down, .syncing, .up, .faulted] ∧
    (linkIn .up 2).atRest ∧ ((linkIn .up 2).pantry 2).replayTimer = some { left := 1000, period := 2000 } ∧ (ready.pantry 2).replayTimer = none ∧
    (afterTurnB.pantry 2).replayTimer = some { left := 2000, period := 2000 } ∧
    ReplayTimer.start 0 = { left := 1000, period := 1000 } ∧
    ((linkIn .up 2).pantry 2).replayCount < 3 ∧ ((linkIn .up 2).pantry 2).replay ≠ [] ∧
    3 ≤ ((linkIn .up 3).pantry 2).replayCount ∧ ((linkIn .up 3).order 5130).map Order.state = some .queued := by
  decide +kernel

/-- A latch set, with a pending count and an unsent flag. -/
def latchSet (i pendingCount : Nat) (unsent : Bool) : State :=
  ready.modLatch i fun l => { l with isSet := true, causes := 1, pendingCount := pendingCount, unsent := unsent }

theorem witness_LatchesRaiseAndClear :
    ((latchSet 120 0 false).latch 120).isSet = true ∧ (ready.latch 120).isSet = false ∧ (full ready).freeEntries = 0 ∧
    0 < ready.freeEntries ∧ ((latchSet 119 0 true).latch 119).unsent = true ∧
    0 < ((latchSet 119 15 false).latch 119).pendingCount ∧ ((latchSet 119 0 false).latch 119).pendingCount = 0 := by
  decide +kernel

theorem writing_inv (offset written : Nat) (back : Bool) (h1 : offset + 3 ≤ 8192) (h2 : written ≤ 3)
    (h3 : back = true ↔ written = 3) : (writing offset written back).memoryInv := by
  refine ⟨rfl, fun w hw => ?_⟩
  simp only [writing, Option.some.injEq] at hw
  subst hw
  exact ⟨h1, h2, h3, Nat.le_add_left 1 2⟩

theorem witness_BootWriteFromRequestToReply :
    (List.replicate 64 (0 : Byte)).length ≤ 64 ∧ 8128 + (List.replicate 64 (0 : Byte)).length ≤ 8192 ∧
    ready.boot.write = none ∧ (writing 30 0 false).boot.write ≠ none ∧ (writing 30 2 false).memoryInv ∧
    (writing 8189 3 true).memoryInv ∧ (writing 30 2 false).atRest ∧
    ([1, 2, 3] : Bytes)[2]? ≠ ([1, 2, 4] : Bytes)[2]? :=
  ⟨by decide, by decide, rfl, by decide, writing_inv _ _ _ (by decide) (by decide) (by decide),
   writing_inv _ _ _ (by decide) (by decide) (by decide), ⟨rfl, rfl⟩, by decide⟩

theorem witness_RestartWaitsForItsReply :
    ready.manages (.restart 1) .restart 1 ∧ restarting.restart = some 5 ∧ restarting.accepts .restart 1 ∧
    restarting.accepts .load 1 ∧ restarting.accepts .control 1 ∧ ∀ c, restarting.inTurn c :=
  ⟨ready_manages _ _ _, rfl, accepts_of ⟨rfl, rfl⟩ rfl (by decide), accepts_of ⟨rfl, rfl⟩ rfl (by decide), accepts_of ⟨rfl, rfl⟩ rfl (by decide),
   inTurn_of rfl⟩

/-- A ROOM_CLOSE and a RESTART routed before midnight's boundary and not yet taken. -/
def midnight : State :=
  { clockAt 0 with
    due := [.roomClose 1 47, .restart 2, .dayBoundary 411]
    riser := { ready.riser with reservations := [(.control, 1), (.restart, 2)] } }

theorem witness_RestartWaitsForItsReply_order :
    midnight.atRest ∧ (managed (.restart 2)).isSome = true ∧ ¬ midnight.inTurn (.restart 2) ∧
    midnight.inTurn (.roomClose 1 47) ∧ midnight.accepts .control 1 ∧ midnight.restart = none ∧ midnight.catchUp = true ∧
    Instr.roomClose 1 47 ∉ [Instr.restart 2, .dayBoundary 411] ∧ Instr.dayBoundary 412 ∉ midnight.due := by
  unfold State.inTurn State.accepts; decide +kernel

/-- R183: requests held back by a boundary are taken in the order in which they were routed, the RESTART last. -/
theorem test_routed_order_survives_boundary :
    let t := go (.roomClose 1 47) midnight
    t.due = [.dayBoundary 411, .roomClose 1 47, .restart 2] ∧ (go (.restart 2) midnight).due = midnight.due ∧
    (go (.readFloorClock 3 false) midnight).due = midnight.due ++ [.readFloorClock 3 false] ∧
    (t.room 47).service = .opened := by decide +kernel

/-- The states in which Booking Engine work waits, for a request of each path. -/
theorem witness_WorkHeldBack :
    midnight.catchUp = true ∧ midnight.atRest ∧ midnight.accepts .book 9 ∧ midnight.accepts .load 9 ∧
    bookReqOk (bookReq 0 1 2 []) = true ∧ alterFormOk (some 0) (alterReq (some 1) none) = true ∧
    refFormOk (some 0) (.index 3) = true ∧ midnight.accepts .alter 9 ∧ midnight.accepts .withdraw 9 ∧
    (let s : State := { morning 0 with due := [.dayBoundary 411] }
     s.catchUp = true ∧ s.inTurn (.loadRoomTable 9 47 1) ∧ (s.drop panel).kind = .roomPanel ∧ (s.drop panel).mode = .normal ∧
     (s.drop panel).room = some 11) := by
  unfold State.inTurn State.accepts; decide +kernel

/-! ### Occupancy, notices and panels -/

/-- A room with a bound sensor whose record stands as given. -/
def sensed (e : Evidence) : State := (withDrop { line := 3, addr := 15 } .roomSensor (some 47) none ready).modEv 47 fun _ => e

theorem witness_EvidenceTickComputesEveryRoom :
    let e := { Evidence.reset with verdict := .vacant }
    ready.atRest ∧ ready.loading = false ∧ ready.boundSensor 47 = none ∧
    (sensed e).boundSensor 47 = some { line := 3, addr := 15 } ∧ ((sensed { e with stale := 2 }).ev 47).stale = 2 ∧
    ((sensed { e with stale := 1 }).ev 47).stale < 2 ∧ ((sensed { e with sampleSeen := true }).ev 47).sampleSeen = true := by
  decide +kernel

theorem witness_SamplesAndEntriesReachTheirRoom :
    let s := sensed Evidence.reset
    let off := s.modDrop { line := 3, addr := 15 } fun d => { d with mode := .shadow }
    s.atRest ∧ (s.drop { line := 3, addr := 15 }).kind = .roomSensor ∧
    (s.drop { line := 3, addr := 15 }).mode = .normal ∧ (s.drop { line := 3, addr := 15 }).room = some 47 ∧
    (off.drop { line := 3, addr := 15 }).mode ≠ .normal ∧ (routing.drop panel).kind = .roomPanel ∧
    (routing.drop panel).mode = .normal ∧ (routing.drop panel).room = some 47 := by decide +kernel

theorem witness_TickReportActsOnCurrentReservations :
    let s (st : ResState) := { put 3 (booking 47 118 124 0 st) (clockAt 600) with
      classes := updAt ready.classes 0 fun k => { k with presence := true, autoEnd := 6 } }
    ready.clock.isSet = false ∧ ready.atRest ∧ (s .due).catchUp = false ∧ (s .due).clock.isSet = true ∧
    (s .due).curSlot = some 120 ∧ (s .due).current 46 = none ∧ (s .due).current 47 = some (3, booking 47 118 124 0 .due) ∧
    ((s .due).classOf 47).presence = true ∧ (s .inUse).current 47 = some (3, booking 47 118 124 0 .inUse) ∧
    ((s .inUse).classOf 47).autoEnd = 6 ∧ ((clockAt 600).classOf 47).autoEnd = 0 := by decide +kernel

theorem witness_NoticesActOnOrdersAndRecords :
    let s := afterTurnB.modRes 210 fun r => { r with state := .released }
    s.atRest ∧ (s.res 210).map Reservation.state = some .released ∧
    (s.res 211).map Reservation.state = some .booked ∧ s.res 767 = none ∧
    (s.order 5121).map (fun o => (o.state, o.cutoff)) = some (.sent, 112) ∧
    (s.order 5120).map Order.state = some .delivered ∧ (kitchen.order 5121).map Order.state = some .held ∧
    (kitchen.order 5130).map Order.state = some .queued ∧ (kitchen.order 5120).map Order.state = some .accepted ∧
    (s.res 210).map Reservation.orders = some [5120, 5121] ∧ (s.order 5121).map s.orderPast = some false ∧
    (let past := s.modRes 210 fun r => { r with day := .past }
     (past.order 5121).map past.orderPast = some true) := by decide +kernel

theorem witness_PanelKeysAreJudged :
    let r := booking 11
    let one (start stop : Nat) (st : ResState) := put 3 (r start stop 0 st) (morning 600)
    let list (s : State) := s.todayRecords 11
    (morning 600).atRest ∧ (morning 600).catchUp = false ∧ ((morning 600).drop panel).kind = .roomPanel ∧
    ((morning 600).drop panel).mode = .normal ∧ ((morning 600).drop panel).room = some 11 ∧
    ((morning 600).drop terminal).kind ≠ .roomPanel ∧ (morning 600).curSlot = some 120 ∧
    ((morning 600).room 11).service = .opened ∧ (one 118 124 .due).current 11 = some (3, r 118 124 0 .due) ∧
    (one 118 124 .inUse).current 11 = some (3, r 118 124 0 .inUse) ∧ (one 121 124 .booked).current 11 = none ∧
    list (one 121 124 .booked) = [(3, r 121 124 0 .booked)] ∧ list (one 118 121 .released) = [(3, r 118 121 0 .released)] ∧
    list (one 122 124 .booked) = [(3, r 122 124 0 .booked)] ∧ list (morning 600) = [] ∧
    (one 118 122 .inUse).current 11 = some (3, r 118 122 0 .inUse) ∧ max (120 + 1) (118 + 1) < 122 ∧
    (one 118 120 .inUse).conflict 11 .today 118 121 0 (some 3) = none := by decide +kernel

theorem witness_WalkupIsJudged :
    let s := put 3 (booking 11 123 124 0 .booked) (morning 600)
    let one (st : ResState) := put 3 (booking 11 118 121 0 st) (morning 600)
    s.atRest ∧ s.catchUp = false ∧ (s.drop panel).kind = .roomPanel ∧ (s.drop panel).mode = .normal ∧
    (s.drop panel).room = some 11 ∧ s.curSlot = some 120 ∧ (s.room 11).service = .opened ∧ s.current 11 = none ∧
    s.inTurnaround 11 120 = false ∧ s.nextBlocked 11 120 = 123 ∧ (s.classOf 11).turnaround = 1 ∧
    s.allocate 11 .today 0 = .ok { index := 0, reclaim := none } ∧
    (one .due).current 11 = some (3, booking 11 118 121 0 .due) ∧
    (one .inUse).current 11 = some (3, booking 11 118 121 0 .inUse) ∧
    (put 3 (booking 11 118 120 1 .ended) (morning 600)).inTurnaround 11 120 = true ∧
    fullList.allocate 47 .today 0 = .error .roomListFull := by decide +kernel

theorem witness_PantryStatusIsTakenByLinkState :
    let x := afterTurnB.pantry 2
    kitchen.atRest ∧ kitchen.servedPantry panel = none ∧ kitchen.servedPantry terminal = some 2 ∧
    (kitchen.drop terminal).mode = .normal ∧ ((linkIn .syncing 0).pantry 2).link = .syncing ∧ x.link = .up ∧
    x.placeOf 17 = some 0 ∧ x.placeOf 18 = some 1 ∧ x.placeOf 19 = none ∧ x.placeOf 16 = none ∧ x.oldest = 17 ∧
    x.replayCount < 3 ∧ (afterTurnB.order 5121).map Order.state = some .sent := by decide +kernel

/-! ### Turns -/

theorem witness_FrameOfTurnIsNamed :
    let d (f : Drop → Drop) := (routing.modDrop panel f).drop panel
    let item : Item := .content 1 [65]
    validDrop panel = true ∧ (d id).kind = .roomPanel ∧ (d id).answer = none ∧ (d id).stale = false ∧ (d id).fifo = [] ∧
    (d fun d => { d with stale := true, fifo := [item], showLast := true }).showLast = true ∧
    (d fun d => { d with stale := true, fifo := [item] }).showLast = false ∧
    (d fun d => { d with answer := some { request := .walkup, result := .refused .poolFull } }).answer.isSome = true ∧
    ((sensed Evidence.reset).drop { line := 3, addr := 15 }).kind = .roomSensor ∧
    kitchen.servedPantry terminal = some 2 ∧ (kitchen.pantry 2).link = .up ∧ (kitchen.pantry 2).dispatch = [5130] ∧
    ((kitchen.pantry 2).limit - (kitchen.pantry 2).consumed).toNat = 1 ∧
    ((afterTurnB.pantry 2).replayPos, (afterTurnB.pantry 2).replay[0]?) =
      (some 0, some { kind := .order, seq := 17, order := some 5130 }) := by decide +kernel

/-- A running line 1 with the terminal served at phases 6 and 22, and a turn of it at a stage. -/
def turning (stage : TurnStage) (abandoned : Bool) (waits : Nat) : State :=
  kitchen.modLine 1 fun x => { x with turn := some { addr := 7, probe := false, timeout := 4, waits := waits
                                                     abandoned := abandoned, stage := stage, frame := .poll (some none) } }

theorem witness_WalkStartsTurns :
    kitchen.atRest ∧ (kitchen.line 1).state = .running ∧ (kitchen.line 1).walk = .walking ∧
    (kitchen.line 1).turn = none ∧ (kitchen.line 1).pointer < 32 ∧ (kitchen.line 1).schedule[6]? = some (.address 7) ∧
    kitchen.phaseTurn 1 (.address 7) = some (7, false) ∧
    (∀ k : Nat, k < 6 → ((kitchen.line 1).schedule[k]?).bind (kitchen.phaseTurn 1) = none) ∧
    (lineIn .running false).phaseTurn 3 .probe = none ∧
    (∀ k : Nat, k < 32 → (((lineIn .running false).line 3).schedule[k]?).bind ((lineIn .running false).phaseTurn 3) = none) ∧
    ((turning .sending false 0).line 1).turn.map Turn.stage = some .sending ∧
    ((turning .waiting false 0).line 1).turn.map Turn.stage = some .waiting ∧
    ((turning .waiting false 0).line 1).incoming = none := by decide +kernel

/-- An up frame of the drop at an address: its bytes with their check byte. -/
def upFrame (addr : Byte) (kind : Byte) (body : Bytes) : Bytes :=
  let bs := (0x80 ||| addr) :: kind :: BitVec.ofNat 8 body.length :: body
  bs ++ [checkByte bs]

theorem witness_TurnsEndWithTheirOutcome :
    (turning .waiting false 3).atRest ∧ ((turning .waiting false 3).line 1).state = .running ∧
    ((turning .waiting false 3).line 1).turn.map Turn.waits = some 3 ∧
    ((turning .receiving false 2).line 1).turn.map Turn.stage = some .receiving ∧
    ((turning .receiving true 0).line 1).turn.map Turn.abandoned = some true ∧ (kitchen.line 1).turn = none ∧
    checkFrame 7 [] = none ∧ checkFrame 7 (upFrame 7 0x83 []) = some (.wait, 0x83, []) ∧
    checkFrame 7 (upFrame 7 0x81 [3]) = some (.ident .pantry, 0x81, [3]) ∧ checkFrame 7 (upFrame 8 0x83 []) = none ∧
    checkFrame 7 (upFrame 7 0x88 [0, 2, 0, 0, 0, 0]) = none ∧ ((lineIn .breaking true).line 3).state ≠ .running ∧
    ((turning .sending false 0).line 1).turn.map Turn.stage = some .sending := by decide +kernel

/-! ### Witnesses of the wider clauses -/

/-- The first record of an image. -/
def atFirst (bytes : Bytes) (limit : Nat) : State :=
  { imageOf bytes with boot := { Boot.reset with phase := .records 4 limit true } }

/-- A first record: none, one past the image, a floor record taken or refused, and one of another table. -/
theorem witness_BootRecordIsDealtWith_first :
    let f : FloorRecord := { building := 3, floor := 12, windowLow := 8, windowHigh := 11, localWeight := 2
                             onwardWeight := 1, offlineTimeout := 60, riserType := 0x9D4E }
    (atFirst [0, 0, 0, 0, 0] 5).boot.phase = .records 4 5 true ∧ (atFirst [] 5).atRest ∧
    parseLoad (memReadRun (imageOf (image.take 17)).bootMem 5 12) = some (.floorRecord 0 f) ∧
    ((atFirst [] 17).load (.floorRecord 0 f)).toBool = true ∧
    ((atFirst [] 17).load (.floorRecord 1 f)).toBool = false ∧
    (((atFirst [] 8).skip 4 .noFloorRecord).load (.roomTable 47 7)).toBool = true ∧
    (((atFirst [] 8).skip 4 .noFloorRecord).load (.roomTable 48 7)).toBool = false ∧
    (atFirst [] 8).boot.firstSkip = none ∧ ((atFirst [] 8).skip 4 .badTable).boot.firstSkip ≠ none := by decide +kernel

/-- A destination of each form elsewhere and here, during the boot load and after it. -/
theorem witness_RouteFollowsDestination_forms :
    let during : State := { routing with boot := { routing.boot with load := .loading } }
    let far : RoomCode := { building := 0, floor := 4, room := 1 }
    ({ room7 with building := 1 } : RoomCode).building ≠ routing.floor.building ∧ far.building = routing.floor.building ∧
    far.floor ≠ routing.floor.floor ∧ routing.floor.windowHigh < far.floor ∧ during.loading = true ∧
    routing.roomMap[47]? = some (some room7) ∧ (∀ j : Nat, j < 48 → routing.roomMap[j]? = some (some room7) → 47 ≤ j) ∧
    validDrop panel = true ∧ (routing.drop panel).kind ≠ .unused ∧
    (commandOf .floor .time 9 [1, 156, 2, 90, 0]).isSome = true ∧ commandOf .floor .time 9 [] = none ∧
    (commandOf (.room 47) .withdraw 9 [0, 2, 255]).isSome = true ∧ commandOf (.room 47) .withdraw 9 [] = none ∧
    (commandOf (.drop panel) .content 9 [0]).isSome = true ∧ commandOf (.drop panel) .content 9 [] = none := by
  decide +kernel

/-- A BROADCAST, a held message that needs no reply after all, and a message behind the one routed. -/
theorem witness_RouteMessageTakesOrHoldsOldest_more :
    let cast : Bytes := [0, 8, 0, 9, 0, 0, 0, 0, 4, 0, 0, 0, 0]
    let held : State := { full routing with riser := { (full routing).riser with replyHeld := true } }
    (parseMessage cast).map Msg.dest = some .broadcast ∧ routing.floor.windowLow ≤ routing.floor.windowHigh ∧
    ready.floor.windowHigh < ready.floor.windowLow ∧ held.freeEntries = 0 ∧ held.riser.replyHeld = true ∧
    (parseMessage (readMessage 1)).map (fun m => (held.routeOf m).needsReply) = some false ∧
    (parseMessage (readMessage 0)).map (fun m => (held.routeOf m).needsReply) = some true ∧
    (received [timeMessage, readMessage 1] routing).riser.receive = [timeMessage, readMessage 1] ∧
    Instr.routeMessage ∉ routing.due := by decide +kernel

/-- The claims of a freed entry: a reply's, an EVENT's, both with the grant flag at either, and neither. -/
theorem witness_TransmittersTakeOldestMessages_grants :
    let reply := received [timeMessage] routing
    let both (event : Bool) : State :=
      { reply with unsent := [119], riser := { reply.riser with grantEvent := event } }
    0 < reply.freeEntries ∧ reply.headNeedsReply = true ∧ reply.unsent = [] ∧ (both false).riser.grantEvent = false ∧
    (both true).riser.grantEvent = true ∧ (both true).unsent ≠ [] ∧ (119 : Nat) < 120 ∧ (full ready).freeEntries = 0 ∧
    ({ (received [readMessage 1] routing) with riser := { (received [readMessage 1] routing).riser with
      replyHeld := true } }).headNeedsReply = false ∧ ready.headNeedsReply = false ∧ ready.riser.replyHeld = false := by
  decide +kernel

/-- A local transmit queue of 31 messages and a request that was held while it was full: an entry has just become free. -/
def oneFreed : State :=
  let s := received [timeMessage] (full routing)
  { s with riser := { s.riser with localQueue := s.riser.localQueue.drop 1, replyHeld := true } }

/-- The two grants of a freed entry, and the end of a message that is not the reply of the RESTART that waits. -/
theorem witness_TransmittersTakeOldestMessages_late :
    oneFreed.riser.replyHeld = true ∧ oneFreed.riser.freed = false ∧ (oneFreed.entryFreed true).riser.freed = true ∧
    ready.riser.replyHeld = false ∧ ready.headNeedsReply = false ∧ ready.unsent = [] ∧
    (let other : State := { restarting with riser := { restarting.riser with
       uplinkTx := some (.own (.reply 0 0 4 .restart .ok .none)) } }
     other.restart = some 5 ∧ other.atRest ∧
     (go .uplinkTransmitEnd other).restart = some 5) := by decide +kernel

/-- R173: an UPFRAME that comes before a late grant takes the entry, and the waiter waits for the next; one that comes after
the grant is discarded. -/
theorem test_upframe_and_grant :
    let late := oneFreed.entryFreed true
    let first := (late.placeUpframe panel 3 []).tryRoute
    let second := late.settled.placeUpframe panel 3 []
    first.riser.localQueue.length = 32 ∧ first.riser.reservations = [] ∧ first.riser.replyHeld = true ∧
    first.riser.upframeDrops = 0 ∧ second.riser.reservations = [(.time, 9)] ∧ second.riser.upframeDrops = 1 ∧
    late.settled.riser = (oneFreed.entryFreed false).riser := by decide +kernel

/-- The ONWARD share chosen, and the LOCAL one chosen from a full queue. -/
theorem witness_ArbiterSharesTheUplink :
    let on : State := { sending with riser := { sending.riser with localQueue := [], upwardQueue := [timeMessage] } }
    let all : State := { full sending with riser := { (full sending).riser with uplinkUp := true } }
    let choose (s : State) := chooseShare (decide (s.riser.localQueue = [])) (decide (s.riser.upwardQueue = []))
      s.floor.localWeight s.floor.onwardWeight s.riser.shareOnward s.riser.shareCount
    on.riser.uplinkUp = true ∧ on.riser.uplinkTx = none ∧ (choose on).1 = true ∧ (choose sending).1 = false ∧
    0 < sending.freeEntries ∧ (choose all).1 = false ∧ all.freeEntries = 0 ∧ all.riser.uplinkTx = none := by
  decide +kernel

/-- A meeting at its last slot, with no tail: no window is met, and a start at the current slot would be DUE at once. -/
def overdue : State := put 3 (booking 47 118 120 0 .inUse) (clockAt 600)

theorem witness_BookRefusalsInOrder_current :
    overdue.accepts .book 1 ∧ overdue.catchUp = false ∧ overdue.conflict 47 .today 120 122 1 none = none ∧
    overdue.reached 120 = true ∧ overdue.reached 122 = false ∧
    overdue.current 47 = some (3, booking 47 118 120 0 .inUse) ∧ (overdue.room 47).service = .opened ∧
    overdue.badWindow (bookReq 0 120 122 []) = false ∧ overdue.duplicateId 47 .today (bookReq 0 120 122 []) = false :=
  ⟨accepts_of ⟨rfl, rfl⟩ rfl (by decide +kernel), by decide +kernel⟩

theorem witness_AlterGivesTheWindow_orders :
    let r := { booking 47 130 140 1 .booked with orders := [77] }
    let o := { anOrder 77 3 130 128 .held with pantry := 7 }
    let s (st : OrderState) : State := { put 4 (booking 47 130 131 1 .cancelled) (put 3 r (clockAt 600)) with
      orders := [{ o with state := st }] }
    let due := put 4 (booking 47 121 140 1 .booked) overdue
    (s .held).res 3 = some r ∧ (s .held).order 77 = some o ∧ r.orders.Nodup ∧ o.res = 3 ∧
    (s .held).alterChecks 3 r (alterReq (some 131) none) = .ok (131, 140) ∧
    (s .queued).alterChecks 3 r (alterReq (some 131) none) = .error (.badState, .none) ∧
    o.deliverBy - ((s .held).pantry 7).lead ≤ 131 ∧
    due.alterChecks 4 (booking 47 121 140 1 .booked) (alterReq (some 120) none) = .error (.conflict, .index 3) ∧
    due.conflict 47 .today 120 140 1 (some 4) = none := by decide +kernel

/-- Work that is due ahead of each kind of boundary and of a step's completion, and none ahead of the first. -/
theorem witness_BoundariesInOrder :
    let runs : State := { clockAt 600 with due :=
      [.slotBoundary 412 119, .bookingSlotRun 412 120, .dispatcherSlotRun 120, .dayBoundary 412] }
    let step : State := { stepping with due :=
      [.evidenceTick, .bookingSlotRun 412 119, .dispatcherSlotRun 119, .timeStepComplete, .dayBoundary 412] }
    (runs.ahead (.slotBoundary 412 119)).any isBoundaryWork = false ∧
    (runs.ahead (.bookingSlotRun 412 120)).any isBookingBoundary = true ∧
    (runs.ahead (.dispatcherSlotRun 120)).any isDispatcherBoundary = true ∧
    (runs.ahead (.dayBoundary 412)).any isBoundaryWork = true ∧
    (step.ahead .timeStepComplete).any isBoundaryWork = true ∧
    (step.ahead (.bookingSlotRun 412 119)).any isBookingBoundary = false ∧ .bookingSlotRun 412 119 ∈ step.stepWork ∧
    Instr.bookingSlotRun 412 120 ∉ runs.stepWork ∧ (stepping.ahead .timeStepComplete).any isBoundaryWork = false ∧
    Instr.timeStepComplete ∈ step.due ∧ stepping.clock.isSet = true := by decide +kernel

/-- The counted boundaries of the last slot and of the day run in ascending order, however late they are taken. -/
theorem test_boundaries_ascend :
    let s : State := { clockAt 0 with due := [.slotBoundary 411 287, .dayBoundary 411] }
    (go (.slotBoundary 411 287) s).due = [.bookingSlotRun 411 287, .dispatcherSlotRun 287, .dayBoundary 411] ∧
    (go (.dayBoundary 411) s).due = s.due ∧ s.catchUp = true := by decide +kernel

theorem witness_DispatcherRunOpensWindows_queue :
    (kitchen.pantry 2).dispatch = [5130] ∧ kitchen.deliverBy 5130 = 112 ∧
    (kitchen.order 5121).map (fun o => (o.deliverBy, o.pantry)) = some (116, 2) ∧ (kitchen.pantry 2).lead = 8 ∧
    (116 : Nat) - 8 ≤ 108 ∧ ¬ (116 : Nat) - 8 ≤ 107 ∧
    (kitchen.pantry 2).dispatch.Pairwise (fun a b => kitchen.deliverBy a ≤ kitchen.deliverBy b) := by decide +kernel

/-- Records of each day with orders of each state: what the rollover frees, moves and promotes. -/
theorem witness_DayBoundaryHasThreeParts_rollover :
    let r (d : Day) (orders : List OrderId) : Reservation := { booking 47 1 2 0 .ended with day := d, orders := orders }
    let s : State := { put 5 (r .next []) (put 4 (r .today [2, 3]) (put 3 { r .past [1] with dirty := true } (clockAt 0))) with
      orders := [{ anOrder 1 3 1 1 .sent with pantry := 7 }, { anOrder 2 4 1 1 .cancelPending with pantry := 7 },
                 { anOrder 3 4 1 1 .held with pantry := 7 }] }
    (s.res 3).map Reservation.day = some .past ∧ (s.res 3).map Reservation.dirty = some true ∧
    (s.order 1).map Order.state = some .sent ∧ s.res 4 = some (r .today [2, 3]) ∧
    (s.order 2).map Order.state = some .cancelPending ∧ (s.order 3).map Order.state = some .held ∧
    (s.room 47).next = [5] ∧ ((s.room 47).next).Nodup ∧ (kitchen.order 5130).map Order.state = some .queued ∧
    (kitchen.order 5120).map Order.state = some .accepted ∧ (r .today []).dirty = false ∧ s.order 9 = none := by
  decide +kernel

theorem witness_LoadsOfRoomTables_catchUp :
    routing.catchUp = false ∧ routing.roomMap[47]? = some (some room7) ∧
    ({ routing with floor := { routing.floor with floor := 1 } }).floor.floor ≠ room7.floor ∧
    routing.due.any isDayBoundary = false := by decide +kernel

theorem witness_LatchesRaiseAndClear_floor :
    (latchSet 120 0 false).latch 120 = { Latch.reset with isSet := true, causes := 1 } ∧
    (ready.latch 120).isSet = false ∧ ((full ready).latch 120).isSet = false ∧
    (Cause.bit .dayFlush) &&& 32 ≠ 0 ∧ (Cause.bit .dirtyDiscarded) &&& 64 ≠ 0 ∧ (Cause.bit .offline) &&& 96 = 0 := by
  decide +kernel

/-- The boundary value of each clause of the read-back: one that is right, one that differs and one that stops short. -/
theorem witness_BootWriteFromRequestToReply_readback :
    (writing 8189 3 true).boot.write.map Write.run = some [1, 2, 3] ∧ ([1, 2, 3] : Bytes)[2]? ≠ ([1, 2] : Bytes)[2]? ∧
    (∀ j : Nat, j < 2 → ([1, 2, 3] : Bytes)[j]? = ([1, 2] : Bytes)[j]?) ∧
    (List.replicate 65 (0 : Byte)).length = 65 ∧ 8129 + (List.replicate 64 (0 : Byte)).length = 8193 := by decide

/-- Requests of the Management Engine while a RESTART waits, with their form right and wrong. -/
theorem witness_RestartWaitsForItsReply_forms :
    managed (.linePowerOn 1 255) = some (.control, 1, true) ∧ managed (.readEvidence 1 false 65535) = some (.read, 1, true) ∧
    managed (.pantryResync 1 7) = some (.control, 1, true) ∧ managed (.pantryResync 1 8) = some (.control, 1, false) ∧
    managed (.dropMode 1 panel 4) = some (.control, 1, false) ∧
    managed (.bootWrite 1 0 (List.replicate 65 0)) = some (.bootWrite, 1, false) ∧
    managed (.alter 1 (some 0) (alterReq none none)) = none ∧ managed (.time 1 0 0 0) = none ∧
    restarting.restart = some 5 := by decide +kernel

/-- R183: with a RESTART waiting, a line above 3 is BUSY; with none it is BAD_MESSAGE. -/
theorem test_busy_before_range :
    answers (go (.linePowerOn 1 4) { restarting with riser := ready.riser }) = [(.busy, .none)] ∧
    answers (go (.linePowerOn 1 4) ready) = [(.badMessage, .none)] := by decide +kernel

/-- Frames handed over with the room their drop was bound to, at both ends of its range. -/
theorem witness_HandedOverFrames :
    let src (r : Nat) : FrameFrom := { drop := panel, room := some r }
    (src 47).room = some 47 ∧ (47 : Nat) < 48 ∧ (src 48).room = some 48 ∧ (morning 600).atRest ∧
    (morning 600).catchUp = false ∧ (ready.drop (src 47).drop).kind ≠ .roomPanel := by decide +kernel

/-- What each acknowledged frame may find, a resync with a report, and a NACK at the last replay. -/
theorem witness_PantryStatusIsTakenByLinkState_more :
    let f (k : FrameKind) (id : Option OrderId) : ReplayFrame := { kind := k, seq := 0, order := id }
    let pending := kitchen.modOrder 5130 fun o => { o with state := .cancelPending }
    let past := afterTurnB.modRes 210 fun r => { r with day := .past }
    let spent := afterTurnB.modPantry 2 fun p => { p with replayCount := 3 }
    (f .order none).order = none ∧ afterTurnB.order 1 = none ∧ (afterTurnB.order 5121).map Order.state = some .sent ∧
    (pending.order 5130).map Order.state = some .cancelPending ∧ (past.res 210).map Reservation.day = some .past ∧
    (afterTurnB.res 210).map Reservation.day = some .today ∧ ((linkIn .syncing 0).pantry 2).replay ≠ [] ∧
    (spent.pantry 2).placeOf 17 = some 0 ∧ 3 ≤ (spent.pantry 2).replayCount ∧ spent.servedPantry terminal = some 2 ∧
    (afterTurnB.pantry 2).replay.map ReplayFrame.order = [some 5130, some 5121] ∧
    (afterTurnB.order 5120).map Order.state = some .delivered ∧ (kitchen.order 5120).map Order.state = some .accepted := by
  decide +kernel

/-- A room for each row of the display (R161). -/
theorem witness_FrameOfTurnIsNamed_display :
    let at_ (start stop tail : Nat) (st : ResState) := put 3 (booking 11 start stop tail st) (morning 600)
    let in_ (x : Service) := (morning 600).modRoom 11 fun e => { e with service := x }
    ((in_ .closing).room 11).service = .closing ∧ ((in_ .closed).room 11).service = .closed ∧
    ready.clock.isSet = false ∧ (ready.room 11).service = .opened ∧ (morning 600).curSlot = some 120 ∧
    ((at_ 118 124 0 .inUse).current 11).isSome = true ∧ (at_ 120 124 0 .due).current 11 = some (3, booking 11 120 124 0 .due) ∧
    ((morning 600).classOf 11).grace = 2 ∧ ¬ 120 + 1 < 119 + 2 ∧ 120 + 1 < 120 + 2 ∧
    (at_ 118 120 1 .ended).res 3 = some (booking 11 118 120 1 .ended) ∧ (at_ 118 120 1 .ended).current 11 = none ∧
    (at_ 123 124 0 .booked).current 11 = none ∧ (123 : Nat) ≤ 120 + 3 ∧ (120 + 3 : Nat) < 124 := by decide +kernel

/-- The rows of R161 in a room: what its panel shows. -/
theorem test_display_rows :
    let at_ (start stop tail : Nat) (st : ResState) := (put 3 (booking 11 start stop tail st) (morning 600)).face (some 11)
    at_ 118 124 0 .inUse = (.inUse, .red, false) ∧ at_ 120 124 0 .due = (.due, .amber, false) ∧
    at_ 119 124 0 .due = (.dueLast, .amber, true) ∧ at_ 118 120 1 .ended = (.turnaround, .off, false) ∧
    at_ 123 124 0 .booked = (.freeSoon, .green, true) ∧ at_ 124 125 0 .booked = (.free, .green, false) := by decide +kernel

/-- Drops in each mode, bound and not, absent and present, for a good answer. -/
theorem witness_TurnsEndWithTheirOutcome_passing :
    let d (m : DropMode) := (routing.modDrop panel fun d => { d with mode := m }).drop panel
    let absent := kitchen.modDrop terminal fun d => { d with present := false }
    let down := absent.modPantry 2 fun p => { p with link := .down }
    (d .normal).mode = .normal ∧ (d .shadow).mode = .shadow ∧ (d .isolated).mode ≠ .normal ∧ (d .excluded).mode ≠ .shadow ∧
    (d .normal).kind = .roomPanel ∧ (d .normal).room = some 47 ∧ (kitchen.drop terminal).room = none ∧
    0 < routing.freeEntries ∧ (full routing).freeEntries = 0 ∧ (oneFreed.entryFreed true).riser.freed = true ∧
    (d .normal).reported ≠ some .pantry ∧
    (d .normal).reported = some .roomPanel ∧ (absent.drop terminal).present = false ∧ down.servedPantry terminal = some 2 ∧
    (down.drop terminal).mode = .normal ∧ (down.pantry 2).link = .down := by decide +kernel

/-- R159: a panel that becomes present is marked stale although it is ISOLATED. -/
theorem test_presence_marks_isolated :
    let s := routing.modDrop panel fun d => { d with present := false, mode := .isolated, stale := false }
    ((s.becomePresent panel).drop panel).stale = true := by decide +kernel

/-! ### Work in its turn -/

/-- A READ of section 11.2 whose body is cut short, with its own tag. -/
def cutRead : Bytes := [1, 8, 0, 10, 0, 0, 0, 0, 0]

/-- R183, R203: a malformed request is answered by the block that takes it, behind the one routed before it. -/
theorem test_malformed_in_turn :
    let s := go .routeMessage (go .routeMessage (received [readMessage 0, cutRead] ready))
    s.due = [.readFloorRecord 9 false, outOfForm .floor .read 10] ∧ answers s = [] ∧
    (go (outOfForm .floor .read 10) s).due = s.due ∧
    (answers (go (outOfForm .floor .read 10) (go (.readFloorRecord 9 false) s))).map Prod.fst = [.ok, .badMessage] ∧
    (let day : State := { ready with due := [.dayBoundary 411] }
     (go (outOfForm (.room 0) .book 9) day).due = [.dayBoundary 411, outOfForm (.room 0) .book 9] ∧
     answers (go (outOfForm (.room 0) .book 9) ready) = [(.badMessage, .none)]) := by decide +kernel

/-- A body out of form at each kind of destination, for a command that can be taken. -/
theorem witness_RouteFollowsDestination_outOfForm :
    ready.accepts .load 9 ∧ ready.catchUp = false ∧ MsgKind.load.upward = false ∧ (∀ c, ready.inTurn c) ∧
    ready.accepts .alter 9 ∧ (47 : Nat) < 48 ∧ ready.accepts .service 9 ∧ validDrop panel = true :=
  ⟨accepts_of ⟨rfl, rfl⟩ rfl (by decide), rfl, rfl, inTurn_of rfl, accepts_of ⟨rfl, rfl⟩ rfl (by decide), by decide,
   accepts_of ⟨rfl, rfl⟩ rfl (by decide), rfl⟩

/-- A day boundary raised at midnight and not yet run. -/
def dayDue : State := { morning 0 with due := [.dayBoundary 411] }

/-- R15: a READ of what the day boundary changes is not taken between the boundary and its run, another one is. -/
theorem test_reads_wait_for_day :
    (go (.readDrop 1 false panel) dayDue).due = [.dayBoundary 411, .readDrop 1 false panel] ∧
    (go (.readReservation 1 false 3) dayDue).due = [.dayBoundary 411, .readReservation 1 false 3] ∧
    (go (.listDirty 1 0) dayDue).due = [.dayBoundary 411, .listDirty 1 0] ∧
    (answers (go (.readDrop 1 false terminal) dayDue)).map Prod.fst = [.ok] ∧
    (answers (go (.readLine 1 false 0) dayDue)).map Prod.fst = [.ok] := by decide +kernel

/-- The states in which a READ of each such record waits, and in which it does not. -/
theorem witness_ReadsOfTheDay :
    (∀ d, d = dayDue ∨ d = ready → d.manages (.readDrop 1 false panel) .read 1 ∧ d.manages (.listDirty 1 767) .listDirty 1 ∧
      d.manages (.readReservation 1 false 767) .read 1) ∧
    dayDue.dayRaised = true ∧ ready.dayRaised = false ∧ (dayDue.drop panel).kind = .roomPanel ∧
    managed (.listDirty 1 65535) = some (.listDirty, 1, true) ∧
    managed (.listDirty 1 65536) = some (.listDirty, 1, false) := by
  refine ⟨?_, by decide +kernel⟩
  unfold State.manages State.accepts State.inTurn
  rintro d (rfl | rfl) <;> decide +kernel

/-- R183, R203: while a RESTART waits, a READ of a pantry above 7 fails its form, a pantry of 7 is BUSY and so is
a second RESTART. -/
theorem test_form_before_busy :
    let s : State := { restarting with riser := ready.riser }
    answers (go (.readPantryConfig 1 false 8) s) = [(.badMessage, .none)] ∧
    answers (go (.readPantryLink 1 false 7) s) = [(.busy, .none)] ∧
    answers (go (.restart 1) s) = [(.busy, .none)] := by
  decide +kernel

/-- The replay timer of pantry 2, with a code loaded since it was started. -/
def replayTimer (code left period : Nat) : State :=
  (linkIn .up 0).modPantry 2 fun p => { p with timeoutCode := code, replayTimer := some { left := left, period := period } }

/-- R89: a running timer ends with the period it was started with, and its restart takes the code as loaded. -/
theorem test_started_period_is_kept :
    ((go (.replayTimerExpiry 2) (replayTimer 1 1000 1000)).pantry 2).replayCount = 0 ∧
    ((go (.replayTimerExpiry 2) (replayTimer 0 1000 2000)).pantry 2).replayCount = 1 ∧
    ((go (.replayTimerExpiry 2) (replayTimer 0 1000 2000)).pantry 2).replayTimer = some { left := 1000, period := 1000 } ∧
    ((go (.replayTimerExpiry 2) (go .clockSecond (replayTimer 1 1000 1000))).pantry 2).replayCount = 1 := by decide +kernel

/-- R12, R114: a timer of one second expires though a TIME message has started its second anew; an offline timer with two
counted seconds left does so too. -/
theorem test_time_cuts_a_second :
    let s := replayTimer 1 1000 1000
    let t := go (.time 1 s.clock.day s.clock.minute s.clock.seconds) { s with riser := { s.riser with offlineTimer := some 2 } }
    (t.pantry 2).replayTimer = some { left := 1000, period := 1000, cuts := 1 } ∧
    ((go (.replayTimerExpiry 2) t).pantry 2).replayCount = 1 ∧
    ((go (.replayTimerExpiry 2) t).pantry 2).replayTimer = some { left := 2000, period := 2000, cuts := 0 } ∧
    t.riser.online = true ∧ (go .offlineTimerExpiry t).riser.online = false := by decide +kernel

/-- A late grant that a reply waits for, with a turn of line 1 in progress. -/
def lateGrant : State :=
  (oneFreed.entryFreed true).modLine 1 fun x =>
    { x with state := .running, turn := some { addr := 7, probe := false, timeout := 4, waits := 0, abandoned := false
                                               stage := .waiting, frame := .poll none } }

/-- The drop of that turn, served as a sensor of no room. -/
def lateServed : State := lateGrant.modDrop terminal fun d => { d with kind := .roomSensor, mode := .normal, present := true }

/-- R173, R174: a command that makes an EVENT finds the entry granted to the reply; an UPFRAME comes before the grant. -/
theorem test_late_grant_before_command :
    (go (.powerFault 1) lateServed).riser.reservations = [(.time, 9)] ∧
    (go (.powerFault 1) lateServed).unsent = [21, 61] ∧
    (go (.upFrameReceived 1 (upFrame 7 0x89 [])) lateServed).riser.reservations = [] ∧
    (go (.upFrameReceived 1 (upFrame 7 0x89 [])) lateServed).riser.upframeDrops = 0 ∧
    (go (.upFrameReceived 1 (upFrame 7 0x83 [])) lateServed).riser.reservations = [(.time, 9)] := by decide +kernel

theorem witness_LateGrants :
    lateServed.resetLow = false ∧ lateServed.riser.freed = true ∧ ready.riser.freed = false ∧
    Instr.powerFault 1 ≠ .routeMessage ∧
    (lateServed.takeUpFrame 1 (upFrame 7 0x89 [])).riser.freed = false ∧
    (lateServed.takeUpFrame 1 (upFrame 7 0x83 [])).riser.freed = true ∧
    (lateServed.turnOf 1).map (fun t => (t.stage, t.abandoned)) = some (.waiting, false) ∧
    checkFrame 7 (upFrame 7 0x89 []) = some (.serviceAnswer [], 0x89, []) := by decide +kernel

/-- No command is an up frame but UP_FRAME_RECEIVED. -/
theorem witness_LateGrants_commands (line : Nat) (frame : Bytes) : Instr.powerFault 1 ≠ .upFrameReceived line frame := by
  simp

/-! ### Places, ends, references and modes -/

/-- A TODAY record of room 47 in a terminal state, with its closed at. -/
def closedAt (slot stop : Nat) (st : ResState) : Reservation :=
  { booking 47 0 stop 1 st with closedAt := some { day := 412, slot := slot } }

/-- An ENDED record of a full list, its tail window passed. -/
def onePast : State := put 3 (closedAt 100 119 .ended) (clockAt 600)

def onePastFull : State := onePast.modRoom 47 fun e => { e with today := List.replicate 32 3 }

/-- A list with space and a full list, with a candidate and without. -/
theorem witness_BookMakesItsRecord_places :
    onePast.isCandidate 3 = true ∧ onePast.earliest [3] = some 3 ∧
    ({ onePast with clock := { onePast.clock with minute := 599 } }).isCandidate 3 = false ∧
    onePastFull.allocate 47 .today 256 = .ok { index := 3, reclaim := some 3 } ∧
    onePastFull.allocate 47 .today 257 = .error .orderPoolFull ∧ fullList.earliest ((fullList.room 47).today) = none := by
  decide +kernel

/-- A pool of 768 equal records. -/
def fullPool (st : ResState) : State :=
  { clockAt 600 with pool := Vector.replicate 768 (some (booking 47 0 1 0 st)) }

theorem fullPool_res (st : ResState) {i : Nat} (h : i < 768) : (fullPool st).res i = some (booking 47 0 1 0 st) := by
  simp [State.res, fullPool, h]

/-- A full pool with no candidate, and one of candidates. -/
theorem witness_BookMakesItsRecord_pool :
    (∀ st j, j < 768 → (fullPool st).res j ≠ none) ∧ (fullPool .due).earliest (List.range 768) = none ∧
    (fullPool .released).earliest (List.range 768) ≠ none ∧ ((fullPool .due).dayList 46 .today).length < 32 := by
  refine ⟨fun st j h => by simp [fullPool_res st h], ?_, ?_, by decide⟩
  · rw [State.earliest]
    refine List.foldlRecOn (motive := (· = none)) _ _ rfl fun best hb i hi => ?_
    simp [hb, State.isCandidate, fullPool_res _ (List.mem_range.mp hi), booking]
  · rw [State.earliest, show (768 : Nat) = 767 + 1 from rfl, List.range_succ_eq_map, List.foldl_cons,
      if_pos (by simp [State.isCandidate, fullPool_res _ (show 0 < 768 by decide), booking])]
    refine List.foldlRecOn (motive := (· ≠ none)) _ _ (by simp) fun best hb i _ => ?_
    split
    · split
      · split <;> simp
      · simp
    · exact hb

/-- R28: among candidates the further back day goes first, then the lower slot, then the lower index. -/
theorem test_earliest_candidate :
    let at_ (i day slot : Nat) (s : State) : State :=
      put i { booking 47 0 1 0 .cancelled with closedAt := some { day := day, slot := slot } } s
    (at_ 5 412 0 (at_ 4 411 288 (clockAt 600))).earliest [4, 5] = some 4 ∧
    (at_ 5 412 7 (at_ 4 412 8 (clockAt 600))).earliest [4, 5] = some 5 ∧
    (at_ 5 412 7 (at_ 4 412 7 (clockAt 600))).earliest [5, 4] = some 4 ∧
    (at_ 5 413 7 (at_ 4 412 7 (clockAt 600))).earliest [4, 5] = some 5 := by decide +kernel

/-- A reference of each form, to a record that is there, free, of another room, or terminal. -/
theorem witness_WithdrawCancelsItsRecord_references :
    let s := put 5 (booking 47 9 10 0 .cancelled) (put 4 { booking 47 6 7 0 .ended with serverId := some 8 }
      (put 3 (booking 47 1 2 0 .booked) (clockAt 0)))
    s.res 3 = some (booking 47 1 2 0 .booked) ∧ s.res 767 = none ∧ (46 : Nat) ≠ (booking 47 1 2 0 .booked).room ∧
    dayOf 0 = some .today ∧ dayOf 1 = some .next ∧ s.dayList 47 .today = [3, 4, 5] ∧
    s.resolve (some 47) (.serverId 7 0) = .ok (3, booking 47 1 2 0 .booked) ∧
    s.resolve (some 47) (.serverId 8 0) = .error .badState ∧ s.resolve (some 47) (.serverId 9 0) = .error .notFound ∧
    s.resolve (some 46) (.index 3) = .error .notFound := by decide +kernel

/-- A meeting in progress in a room that is CLOSING, and work with a boundary in it and without. -/
theorem witness_BookingRunHasThreePhases_ends :
    let s := (put 3 { booking 47 118 120 0 .inUse with orders := [77] } routing).modRoom 47 fun e => { e with service := .closing }
    (s.res 3).map Reservation.orders = some [77] ∧ (s.room 47).service = .closing ∧ panel ∈ s.boundPanels 47 ∧
    terminal ∉ s.boundPanels 47 ∧ s.due.any isDispatcherBoundary = false ∧
    isDispatcherBoundary (.dispatcherSlotRun 121) = true ∧ isDispatcherBoundary (.bookingSlotRun 412 121) = false := by
  decide +kernel

/-- R8, R63: the end of the meeting that a CLOSING room waited for, and its withdraw notice before the next boundary. -/
theorem test_finish_closes_room :
    let s := { (put 3 { booking 47 118 120 0 .inUse with orders := [77] } routing).modRoom 47 fun e =>
      { e with service := .closing } with due := [.evidenceTick, .dispatcherSlotRun 121] }
    let t := s.finish 3 .cancelled .withdrawn { day := 0, slot := 0 } false (some 120)
    (t.room 47).service = .closed ∧ (t.latch 119).isSet = true ∧
    t.due = [.evidenceTick, .withdrawNotice 3 (some 120), .dispatcherSlotRun 121] := by decide +kernel

/-- The ISOLATED mode of a drop that serves a pantry, with a SHOW in flight and an order of each kind. -/
theorem witness_DropModeIsCheckedAndTaken_pantry :
    let s := (turning .waiting false 0).modDrop terminal fun d => { d with inFlight := .show, fifo := [.service []] }
    s.manages (.dropMode 1 terminal 0) .control 1 ∧ dropModeOf 0 = some .isolated ∧ (s.turnOf 1).map Turn.addr = some terminal.addr ∧
    (s.drop terminal).inFlight = .show ∧ s.servedPantry terminal = some 2 ∧ (s.order 5130).map Order.state = some .queued ∧
    (s.order 5121).map Order.state = some .held ∧ (s.pantry 2).link = .up ∧ (ready.drop panel).pantry = none :=
  ⟨manages_of ⟨rfl, rfl⟩ rfl (by decide +kernel) rfl rfl, by decide +kernel⟩

/-- R100, R150, R158: what ISOLATED does to the pantry and to the item in flight, and what EXCLUDED keeps. -/
theorem test_isolated_pantry_drop :
    let s := (turning .waiting false 0).modDrop terminal fun d => { d with inFlight := .show, fifo := [.service []] }
    let t := go (.dropMode 1 terminal 0) s
    let e := go (.dropMode 1 terminal 2) s
    (t.pantry 2).link = .down ∧ (t.pantry 2).dispatch = [] ∧ states t = [.accepted, .held, .failed] ∧
    t.due = [.orderOutcomeNotice 211 5130] ∧ (t.drop terminal).stale = true ∧ (t.drop terminal).droppedItems = 1 ∧
    (e.pantry 2).link = .down ∧ (e.pantry 2).dispatch = [5130] ∧ states e = states s ∧ (e.drop terminal).fifo = [.service []] := by
  decide +kernel

/-- A present drop at its third miss, and one that is not present. -/
theorem witness_TurnsEndWithTheirOutcome_miss :
    let s := kitchen.modDrop terminal fun d => { d with miss := 2 }
    let gone := kitchen.modDrop terminal fun d => { d with miss := 3, present := false }
    (s.drop terminal).present = true ∧ 2 ≤ (s.drop terminal).miss ∧ s.servedPantry terminal = some 2 ∧
    (s.pantry 2).link = .up ∧ (gone.drop terminal).present = false ∧ (kitchen.drop terminal).miss < 2 := by decide +kernel

/-- R147: the third miss takes a pantry's link DOWN with its queue kept, and a later one raises nothing. -/
theorem test_third_miss :
    let s := (turning .waiting false 0).modDrop terminal fun d => { d with miss := 2 }
    let t := go (.answerTimeout 1) s
    let again := go (.answerTimeout 1) { t with lines := s.lines }
    (t.latch 21).raiseCount = 1 ∧ (t.pantry 2).link = .down ∧ (t.pantry 2).dispatch = [5130] ∧
    (again.latch 21) = t.latch 21 := by decide +kernel

/-- A running line 1 with a frame in reception that is not the answer of its turn. -/
def receiving (stage : TurnStage) (abandoned : Bool) (i : Incoming) : State :=
  (turning stage abandoned 0).modLine 1 fun x => { x with incoming := some i }

/-- Errors, frame in reception and turn's stage of line 1. -/
def reception (s : State) : Nat × Option Incoming × Option TurnStage :=
  let x := s.line 1
  (x.errors, x.incoming, x.turn.map Turn.stage)

/-- R135, R140: a frame whose first byte comes after the expiry is an error and no answer of the next turn. -/
theorem test_late_frame_is_outside :
    reception (go (.upFrameFirstByte 1) (go (.answerTimeout 1) (turning .waiting false 0))) = (0, some .outside, none) ∧
    reception (go (.upFrameReceived 1 (upFrame 7 0x82 [])) (receiving .waiting false .outside)) =
      (1, none, some .waiting) ∧
    reception (go (.upFrameReceived 1 (upFrame 7 0x82 [])) (receiving .waiting false .collided)) = (0, none, none) ∧
    reception (go (.upFrameFirstByte 1) (receiving .waiting false .outside)) = (1, none, some .receiving) := by
  decide +kernel

/-- R141: a frame received in the wait of an abandoned turn is not counted, also when it ends after the turn. -/
theorem test_abandoned_wait_discards :
    reception (go (.abandonedTurnEnd 1) (go (.upFrameFirstByte 1) (turning .waiting true 0))) =
      (0, some .discarded, none) ∧
    reception (go (.upFrameReceived 1 (upFrame 7 0x82 [])) (receiving .waiting false .discarded)) =
      (0, none, some .waiting) ∧
    reception (go (.frameEndTimeout 1) (receiving .sending false .outside)) = (1, none, some .sending) := by
  decide +kernel

theorem witness_TurnsEndWithTheirOutcome_incoming :
    (receiving .waiting true .outside).atRest ∧ ((receiving .waiting true .outside).line 1).state = .running ∧
    ((receiving .sending true .discarded).line 1).incoming = some .discarded ∧
    ((receiving .sending false .collided).line 1).turn.map Turn.abandoned = some false := by decide +kernel

/-- A FLOOR reference with no day, which the Management Engine refuses, and work that a catch-up holds back. -/
theorem witness_FormsInACatchUp :
    refFormOk none (.serverId 7 2) = false ∧ (1 : Nat) < 2 ∧ midnight.catchUp = true ∧ ready.catchUp = false ∧
    (47 : Nat) < 48 ∧ bookReqOk (bookReq 2 0 1 []) = false := by
  decide +kernel

theorem witness_CheckByteIsTheLineCrc : checkByte [0x05, 0x01] ≠ 0 := by decide +kernel

theorem ready_latch (i : Nat) : ready.latch i = Latch.reset := by
  unfold State.latch
  show ((Vector.replicate 121 Latch.reset)[i]?).getD Latch.reset = Latch.reset
  by_cases h : i < 121 <;> simp [h]

theorem ready_ev (r : Nat) : ready.ev r = Evidence.reset := by
  unfold State.ev
  show ((Vector.replicate 48 Evidence.reset)[r]?).getD Evidence.reset = Evidence.reset
  by_cases h : r < 48 <;> simp [h]

/-- The premises of the four step invariants are met by a part with work in its queue, whose step answers a next state. -/
theorem witness_StepsKeepInvariants :
    (∃ t, step { ready with pending := [.clockSecond] } = .next t) ∧ ready.memoryInv ∧ ready.riserInv ∧ ready.latchInv ∧
    ready.rangeInv := by
  refine ⟨⟨_, rfl⟩, ⟨rfl, fun w hw => by simp [ready, Boot.reset] at hw⟩, ?_, ⟨?_, ?_, ?_⟩, ?_, ?_⟩
  · refine ⟨by decide, by decide, by decide, by decide, fun k tag => ?_⟩
    simp [State.owed, ready, State.reset, Boot.reset]
  · intro i; rw [ready_latch]; simp [Latch.ok, Latch.reset]
  · decide
  · intro i; rw [ready_latch]; simp [ready, State.reset, Latch.reset]
  · unfold Clock.ok; decide
  · intro r; rw [ready_ev]; simp [Evidence.ok, Evidence.reset]

end Sys2Proof.Tests
end

section
/-! PROOFS. The reservation store: MARK_CLEAN (R35). -/

namespace Sys2Proof.Machine

/-! ## The rule of MARK_CLEAN -/

/-- A change of a record in use puts the changed record at its index. -/
theorem State.modRes_eq_setRes {s : State} {i : Nat} {r : Reservation} (h : s.res i = some r)
    (f : Reservation → Reservation) : s.modRes i f = s.setRes i (some (f r)) := by
  unfold State.modRes State.setRes
  congr 1
  refine updAt_congr _ _ fun a ha => ?_
  have har : a = some r := by simpa only [State.res, ha, Option.getD_some] using h
  simp only [har, Option.map_some]

/-- What MARK_CLEAN does with the record at an index of the store (R35). -/
def State.markClean (tag : Tag) (index : Nat) (version : Byte) (t : State) : State :=
  match t.res index with
  | none => t.reply .markClean tag .badState .none
  | some r =>
    if !r.dirty then t.reply .markClean tag .badState .none
    else if r.version = version then
      (t.modRes index fun r => { r with dirty := false }).reply .markClean tag .ok .none
    else t.reply .markClean tag .staleVersion (.version r.version)

section

variable {t : State} {index : Nat} {r : Reservation} (tag : Tag) {version : Byte}

theorem State.markClean_free (version : Byte) (h : t.res index = none) :
    t.markClean tag index version = t.reply .markClean tag .badState .none := by
  simp only [State.markClean, h]

theorem State.markClean_clean (version : Byte) (h : t.res index = some r) (hd : r.dirty = false) :
    t.markClean tag index version = t.reply .markClean tag .badState .none := by
  simp only [State.markClean, h, hd, Bool.not_false, if_true]

theorem State.markClean_stale (h : t.res index = some r) (hd : r.dirty = true) (hv : r.version ≠ version) :
    t.markClean tag index version = t.reply .markClean tag .staleVersion (.version r.version) := by
  simp only [State.markClean, h, hd, Bool.not_true, Bool.false_eq_true, if_false, if_neg hv]

theorem State.markClean_current (h : t.res index = some r) (hd : r.dirty = true) (hv : r.version = version) :
    t.markClean tag index version =
      (t.setRes index (some { r with dirty := false })).reply .markClean tag .ok .none := by
  simp only [State.markClean, h, hd, Bool.not_true, Bool.false_eq_true, if_false, if_pos hv, State.modRes_eq_setRes h]

end

/-! ## The command -/

/-- MARK_CLEAN is a request of the Management Engine whose index is checked before its rule (R183). -/
theorem exec_markClean (tag : Tag) (index : Nat) (version : Byte) (s : State) :
    exec (.markClean tag index version) s =
      run (.markClean tag index version) s
        (manage .markClean tag (.markClean tag index version) s.settled (decide (index ≤ 65535))
          (inRange .markClean tag (decide (index ≤ 767)) (State.markClean tag index version))) := rfl

section

variable {s : State} {tag : Tag} {index : Nat} {version : Byte}

/-- An index outside the store is answered BAD_MESSAGE, whether its form refuses it or its range. -/
theorem exec_markClean_outside (h : s.manages (.markClean tag index version) .markClean tag) (hi : 767 < index) :
    exec (.markClean tag index version) s =
      .next (s.replies (.markClean tag index version) .markClean tag .badMessage .none) := by
  have ⟨haccepts, _, hturn⟩ := h
  rw [exec_markClean, State.settled_of_atRest haccepts.1]
  by_cases hf : index ≤ 65535
  · rw [manage_takes h _ (decide_eq_true hf), decide_eq_false (Nat.not_le.mpr hi), inRange_bad, State.replies]
  · exact manage_badMessage haccepts hturn _ (decide_eq_false hf)

/-- An index of the store goes on to the rule. -/
theorem exec_markClean_inside (h : s.manages (.markClean tag index version) .markClean tag) (hi : index ≤ 767) :
    exec (.markClean tag index version) s =
      .next ((s.taken (.markClean tag index version) .markClean tag).markClean tag index version).sent := by
  have ⟨⟨hrest, _⟩, _⟩ := h
  have hf : index ≤ 65535 := hi.trans (by decide)
  rw [exec_markClean, State.settled_of_atRest hrest, manage_takes h _ (decide_eq_true hf), decide_eq_true hi,
    inRange_good]

end

/-- Settles O36: by the index, then by the record at it, its dirty flag and its version. -/
theorem markCleanNeedsTheVersion : Obligations.MarkCleanNeedsTheVersion := by
  intro s tag index version c h
  have hres (x : Option Reservation) (hx : s.res index = x) : (s.taken c .markClean tag).res index = x := by
    rw [State.taken_res, hx]
  refine ⟨exec_markClean_outside h, fun hi hn => ?free, fun r hi hr => ⟨fun hd => ?clean, fun hd hv => ?stale,
    fun hd hv => ?current⟩⟩
  all_goals rw [exec_markClean_inside h hi]
  case free => rw [State.markClean_free tag version (hres _ hn), State.replies]
  case clean => rw [State.markClean_clean tag version (hres _ hr) hd, State.replies]
  case stale => rw [State.markClean_stale tag (hres _ hr) hd hv, State.replies]
  case current => rw [State.markClean_current tag (hres _ hr) hd hv]

end Sys2Proof.Machine
end

section
/-! PROOFS. The reservation life cycle: blocked windows and the conflicting record (R43, R44). -/

namespace Sys2Proof.Machine

/-! ## Blocked windows (R43) -/

section

variable {r : Reservation}

theorem Reservation.blocked_of_booked (h : r.state = .booked) : r.blocked = some (r.start, r.effEnd) := by
  simp only [Reservation.blocked, h]

theorem Reservation.blocked_of_current (h : r.state = .due ∨ r.state = .inUse) : r.blocked = some (0, r.effEnd) := by
  obtain h | h := h <;> simp only [Reservation.blocked, h]

theorem Reservation.blocked_of_ended (h : r.state = .ended) : r.blocked = some (r.stop, r.effEnd) := by
  simp only [Reservation.blocked, h]

theorem Reservation.blocked_of_dropped (h : r.state = .released ∨ r.state = .cancelled) : r.blocked = none := by
  obtain h | h := h <;> simp only [Reservation.blocked, h]

end

/-! ## The walk of the day list (R44) -/

/-- Two windows meet exactly when they share a slot: the later of their starts is one. -/
theorem meets_iff_exists_slot (a b : Nat × Nat) :
    meets a b = true ↔ ∃ k, a.1 ≤ k ∧ k < a.2 ∧ b.1 ≤ k ∧ k < b.2 := by
  rw [meets, decide_eq_true_iff]
  constructor
  · intro h
    obtain ⟨ha, hb⟩ := lt_min_iff.mp h
    exact ⟨max a.1 b.1, le_max_left .., ha, le_max_right .., hb⟩
  · rintro ⟨k, ha, ha', hb, hb'⟩
    exact (max_le ha hb).trans_lt (lt_min ha' hb')

/-- The test that the walk of R44 makes at each index: not the excepted record, and a record whose blocked window meets
the candidate's effective window. -/
def State.conflictsAt (s : State) (start stop tail : Nat) (except : Option Nat) (i : Nat) : Bool :=
  decide (some i ≠ except) && (s.res i).any fun r => r.blocked.any (meets (start, min (stop + tail) 288))

theorem State.conflict_eq_find? (s : State) (room : Nat) (day : Day) (start stop tail : Nat) (except : Option Nat) :
    s.conflict room day start stop tail except =
      (s.dayList room day).find? (s.conflictsAt start stop tail except) := by
  unfold State.conflict
  congr 1
  funext i
  unfold State.conflictsAt
  by_cases he : some i = except
  · simp only [he, ne_eq, not_true, decide_false, Bool.false_and, if_true]
  · simp only [he, ne_eq, not_false_iff, decide_true, Bool.true_and, if_false]
    cases s.res i with
    | none => rfl
    | some r => cases hb : r.blocked <;> simp only [hb, Option.any_some, Option.any_none]

theorem State.conflictsAt_iff (s : State) (start stop tail : Nat) (except : Option Nat) (i : Nat) :
    s.conflictsAt start stop tail except i = true ↔
      some i ≠ except ∧ ∃ r w k, s.res i = some r ∧ r.blocked = some w ∧
        start ≤ k ∧ k < min (stop + tail) 288 ∧ w.1 ≤ k ∧ k < w.2 := by
  simp only [State.conflictsAt, Bool.and_eq_true, decide_eq_true_iff, Option.any_eq_true, meets_iff_exists_slot]
  refine and_congr_right fun _ => ⟨?_, ?_⟩
  · rintro ⟨r, hr, w, hw, k, hk⟩
    exact ⟨r, w, k, hr, hw, hk⟩
  · rintro ⟨r, w, k, hr, hw, hk⟩
    exact ⟨r, hr, w, hw, k, hk⟩

/-- Settles O18: the table of R43 by state, and the walk of R44 as the search of the day list for the first index that
passes its test. -/
theorem conflictIsFirstMeetingWindow : Obligations.ConflictIsFirstMeetingWindow := by
  refine ⟨fun r => ⟨Reservation.blocked_of_booked, Reservation.blocked_of_current, Reservation.blocked_of_ended,
    Reservation.blocked_of_dropped⟩, ?_⟩
  intro s room day start stop tail except hit
  have htest (j : Nat) : s.conflictsAt start stop tail except j = true ↔ hit j := s.conflictsAt_iff ..
  rw [State.conflict_eq_find?]
  refine ⟨fun i => ?found, ?free⟩
  case found =>
    simp only [List.find?_eq_some_iff_append, Bool.not_eq_true', ← Bool.not_eq_true, htest]
    constructor
    · rintro ⟨hi, before, after, hlist, hbefore⟩
      exact ⟨before, after, hlist, hi, hbefore⟩
    · rintro ⟨before, after, hlist, hi, hbefore⟩
      exact ⟨hi, before, after, hlist, hbefore⟩
  case free => simp only [List.find?_eq_none, htest]

end Sys2Proof.Machine
end

section
/-! PROOFS. The panel lines: the check byte (R137). -/

namespace Sys2Proof.Machine

/-! ## The register of the check byte -/

/-- One shift of the register: the bit shifted out brings in the polynomial's lower terms (R137). -/
def crcShift (r : Byte) : Byte := if r.msb then (r <<< 1) ^^^ 0x07 else r <<< 1

/-- Both recursions take a shift first and go on from its result. -/
theorem crcByte_eq_iterate (r : Byte) (n : Nat) : crcByte r n = crcShift^[n] r := by
  induction n generalizing r with
  | zero => rfl
  | succ n ih => rw [crcByte, Function.iterate_succ_apply, ih, crcShift]

@[simp] theorem crcShift_zero : crcShift 0 = 0 := by decide

/-- A clear register stays clear: this is why an intact frame gives 0. -/
@[simp] theorem crcByte_zero (n : Nat) : crcByte 0 n = 0 := by
  rw [crcByte_eq_iterate, Function.iterate_fixed crcShift_zero]

@[simp] theorem checkByte_nil : checkByte [] = 0xFF := rfl

theorem checkByte_concat (bs : Bytes) (b : Byte) :
    checkByte (bs ++ [b]) = crcByte (checkByte bs ^^^ b) 8 :=
  List.foldl_concat ..

/-- The check byte combined with the register that it equals clears the register (R137: the result is not inverted). -/
theorem checkByte_concat_checkByte (bs : Bytes) : checkByte (bs ++ [checkByte bs]) = 0 := by
  rw [checkByte_concat, BitVec.xor_self]
  exact crcByte_zero 8

/-! ## The check byte in the frames of a line -/

theorem DownFrame.bytes_eq_concat_checkByte (f : DownFrame) (addr : Nat) :
    ∃ head, f.bytes addr = head ++ [checkByte head] :=
  ⟨u8 addr ++ u8 f.parts.1 ++ u8 f.parts.2.length ++ f.parts.2, rfl⟩

theorem checkFrame_eq_none_of_checkByte {frame : Bytes} (h : checkByte frame ≠ 0) (addr : Nat) :
    checkFrame addr frame = none := by
  rw [checkFrame, if_pos h]

/-- Settles O55: a byte is eight shifts of the register, and the check byte clears the register that made it. -/
theorem checkByteIsTheLineCrc : Obligations.CheckByteIsTheLineCrc := by
  refine ⟨checkByte_nil, fun bs b => ?byte, checkByte_concat_checkByte, DownFrame.bytes_eq_concat_checkByte,
    fun addr _ h => checkFrame_eq_none_of_checkByte h addr⟩
  case byte =>
    intro shift
    calc checkByte (bs ++ [b])
        = crcByte (checkByte bs ^^^ b) 8 := checkByte_concat bs b
      _ = shift^[8] (checkByte bs ^^^ b) := crcByte_eq_iterate _ 8

end Sys2Proof.Machine
end

section
/-! PROOFS. What every step keeps: the boot memory (R188, R189), the Riser Port (R168, R172), the latches (R192 to R195) and
the ranges (R12, R71). A command's effect keeps the four invariants together; a request's effect keeps them on a state that
holds the reservation of its reply. -/

namespace Sys2Proof.Machine

variable {s t u : State} {k : MsgKind} {tag : Tag}

/-! ## Effects that keep the invariants -/

/-- An effect that keeps the four invariants. -/
structure State.KeepsInv (s t : State) : Prop where
  memory : s.memoryInv → t.memoryInv
  riser : s.riserInv → t.riserInv
  latch : s.latchInv → t.latchInv
  range : s.rangeInv → t.rangeInv

/-- An effect that keeps the four invariants when the state holds a reservation beyond those of work in progress: the
effect of a request, which may use up the reservation with its reply. -/
structure State.KeepsInvFor (k : MsgKind) (tag : Tag) (s t : State) : Prop where
  memory : s.memoryInv → t.memoryInv
  riser : s.riserInv → s.hasReservation k tag = true → t.riserInv
  latch : s.latchInv → t.latchInv
  range : s.rangeInv → t.rangeInv

theorem State.hasReservation_iff :
    s.hasReservation k tag = true ↔ s.owed k tag < s.riser.reservations.count (k, tag) := by
  rw [State.hasReservation, decide_eq_true_iff]

theorem State.owed_congr (h1 : t.timeStep = s.timeStep) (h2 : t.boot.write = s.boot.write) (k : MsgKind) (tag : Tag) :
    t.owed k tag = s.owed k tag := by
  simp only [State.owed, h1, h2]

theorem State.riserInv_iff :
    s.riserInv ↔ s.riser.Fits ∧ ∀ k tag, s.owed k tag ≤ s.riser.reservations.count (k, tag) :=
  ⟨fun ⟨h1, h2, h3, h4, h5⟩ => ⟨⟨h1, h2, h3, h4⟩, h5⟩, fun ⟨⟨h1, h2, h3, h4⟩, h5⟩ => ⟨h1, h2, h3, h4, h5⟩⟩

theorem State.memoryInv_congr (h1 : t.bootMem = s.bootMem) (h2 : t.boot.write = s.boot.write) (h : s.memoryInv) :
    t.memoryInv := by
  unfold State.memoryInv at *
  rw [h1, h2]
  exact h

namespace State.KeepsInv

theorem same (s : State) : s.KeepsInv s := ⟨id, id, id, id⟩

theorem trans (h : s.KeepsInv t) (k : t.KeepsInv u) : s.KeepsInv u :=
  ⟨k.1 ∘ h.1, k.2 ∘ h.2, k.3 ∘ h.3, k.4 ∘ h.4⟩

/-- A request whose effect needs no reservation. -/
theorem toFor (h : s.KeepsInv t) : s.KeepsInvFor k tag t := ⟨h.1, fun r _ => h.2 r, h.3, h.4⟩

end State.KeepsInv

/-- A steady change keeps the work in progress, so that reservations held for it, and one more, are held still. -/
theorem State.Steady.hasReservation (h : s.Steady t) (hr : s.riserInv) (hk : s.hasReservation k tag = true) :
    t.hasReservation k tag = true := by
  rw [State.hasReservation_iff] at *
  rw [State.owed_congr h.timeStep h.write]
  exact hk.trans_le ((h.keeps (State.riserInv_iff.1 hr).1).2 _)

theorem State.Steady.keepsInv (h : s.Steady t) : s.KeepsInv t where
  memory := State.memoryInv_congr h.bootMem h.write
  riser hr := by
    obtain ⟨hfits, howed⟩ := State.riserInv_iff.1 hr
    obtain ⟨hfits', hcount⟩ := h.keeps hfits
    refine State.riserInv_iff.2 ⟨hfits', fun k tag => ?_⟩
    rw [State.owed_congr h.timeStep h.write]
    exact (howed k tag).trans (hcount _)
  latch := h.latch
  range := h.range

namespace State.KeepsInvFor

theorem of_steady (h : s.Steady t) (k' : t.KeepsInvFor k tag u) : s.KeepsInvFor k tag u where
  memory := k'.1 ∘ h.keepsInv.1
  riser hr hk := k'.2 (h.keepsInv.2 hr) (h.hasReservation hr hk)
  latch := k'.3 ∘ h.keepsInv.3
  range := k'.4 ∘ h.keepsInv.4

theorem steady (h : s.KeepsInvFor k tag t) (k' : t.Steady u) : s.KeepsInvFor k tag u where
  memory := k'.keepsInv.1 ∘ h.1
  riser hr hk := k'.keepsInv.2 (h.2 hr hk)
  latch := k'.keepsInv.3 ∘ h.3
  range := k'.keepsInv.4 ∘ h.4

/-- A reply uses up one reservation that work in progress does not need. -/
theorem reply (s : State) (k : MsgKind) (tag : Tag) (code : Code) (body : Body) :
    s.KeepsInvFor k tag (s.reply k tag code body) where
  memory := id
  riser hr hk := by
    obtain ⟨hfits, howed⟩ := State.riserInv_iff.1 hr
    rw [State.hasReservation_iff] at hk
    have hmem : (k, tag) ∈ s.riser.reservations := List.count_pos_iff.1 (by omega)
    refine State.riserInv_iff.2 ⟨State.reply_fits hfits hmem code body, fun k' tag' => ?_⟩
    rw [show (s.reply k tag code body).owed k' tag' = s.owed k' tag' from rfl, State.reply_count]
    have := howed k' tag'
    split
    next e => cases e; omega
    next => exact this
  latch := id
  range := id

/-- A steady change with its reply. -/
theorem steady_reply (h : s.Steady t) (code : Code) (body : Body) : s.KeepsInvFor k tag (t.reply k tag code body) :=
  of_steady h (reply t k tag code body)

end State.KeepsInvFor

/-! ## How a command runs -/

/-- An outcome whose next state keeps the invariants of a state. -/
def NextKeeps (s : State) (o : Host.Outcome State Fault Refusal) : Prop := ∀ t, o = .next t → s.KeepsInv t

theorem nextKeeps_next (h : s.KeepsInv t) : NextKeeps s (.next t) := by
  rintro _ ⟨⟩
  exact h

theorem nextKeeps_commandEnd (h : s.KeepsInv t) : NextKeeps s (commandEnd s t) := by
  refine nextKeeps_next ?_
  split
  · exact .same s
  · exact h.trans State.sent_steady.keepsInv

theorem State.settled_takeDue_steady (c : Instr) : s.Steady (s.settled.takeDue c) :=
  State.settled_steady.trans (State.takeDue_steady c)

theorem nextKeeps_run {f : State → State} (c : Instr) (h : ∀ t : State, t.KeepsInv (f t)) : NextKeeps s (run c s f) :=
  nextKeeps_commandEnd ((State.settled_takeDue_steady c).keepsInv.trans (h _))

/-- A command whose effect is steady. -/
theorem nextKeeps_steady {f : State → State} (c : Instr) (h : ∀ t : State, t.Steady (f t)) : NextKeeps s (run c s f) :=
  nextKeeps_run c fun t => (h t).keepsInv

/-- A request that can have its reservation holds it once it is reserved. -/
theorem State.reserve_keepsInv (h : s.canReply k tag = true) : s.KeepsInv (s.reserve k tag) := by
  unfold State.reserve
  split
  next => exact .same s
  next hr =>
    have hfree : 0 < s.freeEntries := by simpa [State.canReply, hr] using h
    refine ⟨id, fun hi => ?_, id, id⟩
    obtain ⟨⟨h1, h2, h3, h4⟩, howed⟩ := State.riserInv_iff.1 hi
    have hused := State.freeEntries_pos.1 hfree
    refine State.riserInv_iff.2 ⟨⟨h1, h2, h3, ?_⟩, fun k' tag' => ?_⟩
    · simp only [Riser.used, State.modRiser_riser, List.length_append, List.length_singleton] at hused ⊢
      omega
    · refine (howed k' tag').trans ?_
      simp [List.count_append]

theorem State.reserve_hasReservation (h : s.riserInv) : (s.reserve k tag).hasReservation k tag = true := by
  unfold State.reserve
  split
  next h => exact h
  next =>
    refine State.hasReservation_iff.2 (Nat.lt_of_le_of_lt ((State.riserInv_iff.1 h).2 k tag) ?_)
    simp only [State.modRiser_riser, List.count_append, List.count_singleton_self]
    omega

/-- A request that is served, answered NOT_READY or left waiting. -/
theorem serve_keepsInv {act : State → State} (c : Instr) (h : ∀ t : State, t.KeepsInvFor k tag (act t)) (s : State) :
    s.KeepsInv (serve k tag c act s) := by
  unfold serve
  split
  next => exact (State.hand_steady c).keepsInv
  next hc =>
    have hcan : s.canReply k tag = true := by simpa using hc
    have hres := State.reserve_keepsInv hcan
    have hact (f : State → State) (hf : ∀ t : State, t.KeepsInvFor k tag (f t)) :
        s.KeepsInv (f (s.reserve k tag)) :=
      ⟨(hf _).1 ∘ hres.1, fun hi => (hf _).2 (hres.2 hi) (State.reserve_hasReservation hi), (hf _).3 ∘ hres.3,
        (hf _).4 ∘ hres.4⟩
    simp only
    split
    · exact hact (fun t => t.reply k tag .notReady .none) fun t => .reply t ..
    · exact hact act h

theorem nextKeeps_serve {act : State → State} (c : Instr) (h : ∀ t : State, t.KeepsInvFor k tag (act t)) :
    NextKeeps s (run c s (serve k tag c act)) :=
  nextKeeps_run c fun t => serve_keepsInv c h t

/-- Work that runs in its turn keeps the invariants when its own effect does: while it waits it changes only what is due. -/
theorem nextKeeps_afterEarlier {act : State → State} (earlier : Instr → Bool) (c : Instr)
    (h : ∀ t : State, t.KeepsInv (act t)) : NextKeeps s (run c s (afterEarlier earlier c s.settled act)) := by
  refine nextKeeps_commandEnd ?_
  unfold afterEarlier
  split
  · exact (State.settled_steady.trans (State.handOnce_steady c)).keepsInv
  · exact (State.settled_takeDue_steady c).keepsInv.trans (h _)

/-- A request of the Management Engine. -/
theorem nextKeeps_manage {act : State → State} (c : Instr) (form : Bool)
    (h : ∀ t : State, t.KeepsInvFor k tag (act t)) : NextKeeps s (run c s (manage k tag c s.settled form act)) := by
  refine nextKeeps_afterEarlier isManaged c fun t => serve_keepsInv c (fun t => ?_) t
  split
  · exact .reply t ..
  · split
    · exact .reply t ..
    · exact h t

theorem inRange_keepsInvFor {act : State → State} (ok : Bool) (h : t.KeepsInvFor k tag (act t)) :
    t.KeepsInvFor k tag (inRange k tag ok act t) := by
  cases ok
  · exact .reply t ..
  · exact h

/-- A change of the work that is due alone. -/
theorem State.due_steady (s : State) (l : List Instr) : s.Steady { s with due := l } :=
  .of_eq rfl rfl rfl rfl rfl rfl rfl rfl

theorem afterCatchUp_steady {act : State → State} (c again : Instr) (h : t.Steady (act t)) :
    t.Steady (afterCatchUp c again s act t) := .ite (t.due_steady _) h

theorem afterCatchUp_keepsInvFor {act : State → State} (c again : Instr) (h : t.KeepsInvFor k tag (act t)) :
    t.KeepsInvFor k tag (afterCatchUp c again s act t) := by
  unfold afterCatchUp
  split
  · exact (t.due_steady _).keepsInv.toFor
  · exact h

theorem afterDay_keepsInvFor {act : State → State} (c : Instr) (h : t.KeepsInvFor k tag (act t)) :
    t.KeepsInvFor k tag (afterDay c s act t) := by
  unfold afterDay
  split
  · exact (t.due_steady _).keepsInv.toFor
  · exact h

/-! ## Booking requests -/

theorem execBook_keeps (tag : Tag) (room : Nat) (req : BookReq) : NextKeeps s (execBook tag room req s) := by
  refine nextKeeps_serve _ fun t => ?_
  split
  · exact .reply t ..
  · refine afterCatchUp_keepsInvFor _ _ ?_
    repeat' split
    next => exact .reply t ..
    next => exact .steady_reply (State.makeBooking_steady ..) ..
    next => exact .reply t ..

theorem State.takeAlter_keepsInvFor (s : State) (tag : Tag) (room : Option Nat) (a : AlterReq) :
    s.KeepsInvFor .alter tag (s.takeAlter tag room a) := by
  unfold State.takeAlter
  repeat' split
  next => exact .reply s ..
  next => exact .reply s ..
  next => exact .steady_reply (State.applyAlter_steady ..) ..

theorem execAlter_keeps (tag : Tag) (room : Option Nat) (req : AlterReq) : NextKeeps s (execAlter tag room req s) := by
  have hact (t : State) := afterCatchUp_keepsInvFor (s := s.settled) (.alter tag room req) (.alter tag room req)
    (inRange_keepsInvFor (act := fun t => t.takeAlter tag room req) (alterFormOk room req)
      (t.takeAlter_keepsInvFor tag room req))
  cases room
  · exact nextKeeps_manage _ _ hact
  · exact nextKeeps_serve _ hact

theorem State.takeWithdraw_keepsInvFor (s : State) (tag : Tag) (room : Option Nat) (ref : Ref) :
    s.KeepsInvFor .withdraw tag (s.takeWithdraw tag room ref) := by
  unfold State.takeWithdraw
  repeat' split
  next => exact .reply s ..
  next => exact .reply s ..
  next => exact .steady_reply (State.finish_steady ..) ..

theorem execWithdraw_keeps (tag : Tag) (room : Option Nat) (ref : Ref) : NextKeeps s (execWithdraw tag room ref s) := by
  have hact (t : State) := afterCatchUp_keepsInvFor (s := s.settled) (.withdraw tag room ref) (.withdraw tag room ref)
    (inRange_keepsInvFor (act := fun t => t.takeWithdraw tag room ref) (refFormOk room ref)
      (t.takeWithdraw_keepsInvFor tag room ref))
  cases room
  · exact nextKeeps_manage _ _ hact
  · exact nextKeeps_serve _ hact

theorem execRoomClose_keeps (tag : Tag) (room : Nat) : NextKeeps s (execRoomClose tag room s) :=
  nextKeeps_manage _ _ fun _ => afterCatchUp_keepsInvFor _ _
    (inRange_keepsInvFor _ (.steady_reply (State.closeRoom_steady room) ..))

theorem execRoomOpen_keeps (tag : Tag) (room : Nat) : NextKeeps s (execRoomOpen tag room s) :=
  nextKeeps_manage _ _ fun t => afterCatchUp_keepsInvFor _ _
    (inRange_keepsInvFor _ (.steady_reply (.ite (.same t) (State.setService_steady ..)) ..))

/-! ## CONTENT and SERVICE -/

theorem State.queueItem_steady (c : DropCode) (item : Item) : s.Steady (s.queueItem c item) := State.modDrop_steady c _

theorem execContentRoom_keeps (tag : Tag) (room : Nat) (state : Byte) (text : Bytes) :
    NextKeeps s (execContentRoom tag room state text s) := by
  refine nextKeeps_serve _ fun t => ?_
  simp only
  repeat' split
  next => exact .reply t ..
  next => exact .reply t ..
  next => exact .reply t ..
  next => exact .reply t ..
  next => exact .steady_reply (.foldl (fun _ _ => State.queueItem_steady ..) _ _) ..

theorem execContentDrop_keeps (tag : Tag) (drop : DropCode) (state : Byte) (text : Bytes) :
    NextKeeps s (execContentDrop tag drop state text s) := by
  refine nextKeeps_serve _ fun t => ?_
  repeat' split
  next => exact .reply t ..
  next => exact .reply t ..
  next => exact .reply t ..
  next => exact .steady_reply (State.queueItem_steady ..) ..

theorem execService_keeps (tag : Tag) (drop : DropCode) (body : Bytes) :
    NextKeeps s (execService tag drop body s) := by
  refine nextKeeps_serve _ fun t => ?_
  simp only
  repeat' split
  next => exact .reply t ..
  next => exact .reply t ..
  next => exact .reply t ..
  next => exact .steady_reply (State.queueItem_steady ..) ..

/-! ## LOADs and READs -/

theorem State.replyLoad_keepsInvFor (s : State) (tag : Tag) (table entry : Nat) (r : LoadReq) :
    s.KeepsInvFor .load tag (s.replyLoad tag table entry (s.load r)) := by
  unfold State.replyLoad
  split
  next h => exact .steady_reply (State.load_steady h) ..
  next => exact .reply s ..

/-- A LOAD that its owner takes as it comes. -/
theorem nextKeeps_load (c : Instr) (form : Bool) (table entry : Nat) (r : LoadReq) :
    NextKeeps s (run c s (manage .load tag c s.settled form fun t => t.replyLoad tag table entry (t.load r))) :=
  nextKeeps_manage c form fun t => t.replyLoad_keepsInvFor tag table entry r

/-- A LOAD that waits for the end of a catch-up. -/
theorem nextKeeps_bookingLoad (c : Instr) (table entry : Nat) (r : LoadReq) :
    NextKeeps s (run c s (manage .load tag c s.settled true
      (afterCatchUp c c s.settled fun t => t.replyLoad tag table entry (t.load r)))) :=
  nextKeeps_manage c true fun t => afterCatchUp_keepsInvFor c c (t.replyLoad_keepsInvFor tag table entry r)

/-- A READ whose body is read off the state, with a range of its own. -/
theorem nextKeeps_readIn (c : Instr) (ok : Bool) (body : State → Body) :
    NextKeeps s (run c s (manage .read tag c s.settled true (inRange .read tag ok fun t => t.readOk tag (body t)))) :=
  nextKeeps_manage c true fun t => inRange_keepsInvFor ok (.reply t ..)

/-- A READ whose body is read off the state. -/
theorem nextKeeps_read (c : Instr) (form : Bool) (body : State → Body) :
    NextKeeps s (run c s (manage .read tag c s.settled form fun t => t.readOk tag (body t))) :=
  nextKeeps_manage c form fun t => .reply t ..

/-- A READ that a read-and-clear follows by a steady change. -/
theorem readClear_keepsInvFor (clear : Bool) (body : Body) {f : State → State} (h : ∀ u : State, u.Steady (f u)) :
    t.KeepsInvFor .read tag (if clear = true then f (t.readOk tag body) else t.readOk tag body) := by
  split
  · exact .steady (.reply t ..) (h _)
  · exact .reply t ..

theorem execReadReservation_keeps (tag : Tag) (clear : Bool) (index : Nat) :
    NextKeeps s (execReadReservation tag clear index s) := by
  refine nextKeeps_manage _ _ fun t => afterDay_keepsInvFor _ (inRange_keepsInvFor _ ?_)
  split
  · exact .reply t ..
  · exact .reply t ..

theorem execReadOrder_keeps (tag : Tag) (clear : Bool) (id : OrderId) : NextKeeps s (execReadOrder tag clear id s) := by
  refine nextKeeps_manage _ _ fun t => ?_
  split
  · exact .reply t ..
  · exact .reply t ..

theorem execReadDrop_keeps (tag : Tag) (clear : Bool) (drop : DropCode) :
    NextKeeps s (execReadDrop tag clear drop s) := by
  refine nextKeeps_manage _ _ fun t => inRange_keepsInvFor _ ?_
  have hgive (shown : Option Display) := readClear_keepsInvFor (t := t) (tag := tag) clear (.drop drop (t.drop drop) shown)
    fun u => u.modDrop_steady drop fun d => { d with droppedItems := 0, ignoredFrames := 0 }
  simp only
  split
  · exact afterDay_keepsInvFor _ (hgive _)
  · exact hgive none

theorem execReadLine_keeps (tag : Tag) (clear : Bool) (line : Nat) : NextKeeps s (execReadLine tag clear line s) :=
  nextKeeps_manage _ _ fun _ => inRange_keepsInvFor _ (readClear_keepsInvFor clear _ fun _ => State.modLine_steady ..)

theorem execReadPantryLink_keeps (tag : Tag) (clear : Bool) (pantry : Nat) :
    NextKeeps s (execReadPantryLink tag clear pantry s) :=
  nextKeeps_manage _ _ fun _ => readClear_keepsInvFor clear _ fun _ => State.modPantry_steady ..

theorem State.clearCounters_steady : s.Steady (s.modRiser Riser.clearCounters) :=
  .of_riser _ (fun _ => rfl) (fun _ => rfl) (fun _ => rfl) (fun _ => rfl) (fun _ => rfl) (fun _ => rfl)

theorem execReadRiserPort_keeps (tag : Tag) (clear : Bool) : NextKeeps s (execReadRiserPort tag clear s) :=
  nextKeeps_manage _ _ fun _ => readClear_keepsInvFor clear _ fun _ => State.clearCounters_steady

theorem execListDirty_keeps (tag : Tag) (cursor : Nat) : NextKeeps s (execListDirty tag cursor s) :=
  nextKeeps_manage _ _ fun t => afterDay_keepsInvFor _ (inRange_keepsInvFor _ (.reply t ..))

theorem execMarkClean_keeps (tag : Tag) (index : Nat) (version : Byte) :
    NextKeeps s (execMarkClean tag index version s) := by
  refine nextKeeps_manage _ _ fun t => inRange_keepsInvFor _ ?_
  repeat' split
  next => exact .reply t ..
  next => exact .reply t ..
  next => exact .steady_reply (State.modRes_steady ..) ..
  next => exact .reply t ..

/-! ## Lines, drops and pantries -/

theorem execLinePowerOn_keeps (tag : Tag) (line : Nat) : NextKeeps s (execLinePowerOn tag line s) :=
  nextKeeps_manage _ _ fun _ => inRange_keepsInvFor _ (.steady_reply (State.powerOn_steady line) ..)

theorem execLinePowerOff_keeps (tag : Tag) (line : Nat) : NextKeeps s (execLinePowerOff tag line s) :=
  nextKeeps_manage _ _ fun t => inRange_keepsInvFor _ (.steady_reply (.ite (.same t) (State.setLine_steady ..)) ..)

theorem execLineBreak_keeps (tag : Tag) (line : Nat) : NextKeeps s (execLineBreak tag line s) := by
  refine nextKeeps_manage _ _ fun t => inRange_keepsInvFor _ ?_
  split
  next => exact .steady_reply (State.setLine_steady ..) ..
  all_goals exact .reply t ..

theorem execDropMode_keeps (tag : Tag) (drop : DropCode) (mode : Nat) : NextKeeps s (execDropMode tag drop mode s) := by
  refine nextKeeps_manage _ _ fun t => inRange_keepsInvFor _ ?_
  split
  next => exact .reply t ..
  next =>
    split
    next => exact .reply t ..
    next => exact .steady_reply (.ite (State.resumeWalk_steady _) (State.changeMode_steady ..)) ..

theorem execPantryResync_keeps (tag : Tag) (pantry : Nat) : NextKeeps s (execPantryResync tag pantry s) := by
  refine nextKeeps_manage _ _ fun t => ?_
  split
  next => exact .reply t ..
  next => exact .reply t ..
  all_goals exact .steady_reply (State.modPantry_steady ..) ..

theorem execPantryStatus_keeps (drop : DropCode) (status : PantryStatus) :
    NextKeeps s (execPantryStatus drop status s) := by
  refine nextKeeps_steady _ fun t => ?_
  split
  · exact .ite (State.takeStatus_steady ..) (.same t)
  · exact .same t

theorem execReplayTimerExpiry_keeps (pantry : Nat) : NextKeeps s (execReplayTimerExpiry pantry s) :=
  nextKeeps_steady _ fun t => .ite (State.startReplay_steady ..) (.same t)

theorem execSettlingEnd_keeps (line : Nat) : NextKeeps s (execSettlingEnd line s) :=
  nextKeeps_steady _ fun t => .ite (State.setLine_steady ..) (.same t)

theorem execBreakLowEnd_keeps (line : Nat) : NextKeeps s (execBreakLowEnd line s) :=
  nextKeeps_steady _ fun t => .ite (State.modLine_steady ..) (.same t)

theorem execBreakQuietEnd_keeps (line : Nat) : NextKeeps s (execBreakQuietEnd line s) :=
  nextKeeps_steady _ fun t => .ite
    (((State.modLine_steady line _).trans (State.raise_steady ..)).trans (State.handOnce_steady _)) (.same t)

theorem execPowerFault_keeps (line : Nat) : NextKeeps s (execPowerFault line s) := by
  refine nextKeeps_steady _ fun t => ?_
  split
  next => exact (State.setLine_steady ..).trans (State.raise_steady ..)
  next => exact (State.setLine_steady ..).trans (State.raise_steady ..)
  next => exact (State.setLine_steady ..).trans (State.raise_steady ..)
  all_goals exact .same t

theorem execWalkPhase_keeps (line : Nat) : NextKeeps s (execWalkPhase line s) :=
  nextKeeps_steady _ fun t => .ite (State.walk_steady line 32) (.same t)

theorem execDownFrameSent_keeps (line : Nat) : NextKeeps s (execDownFrameSent line s) := by
  refine nextKeeps_steady _ fun t => ?_
  split
  · exact .ite (State.modLine_steady ..) (.same t)
  · exact .same t

theorem execUpFrameReceived_keeps (line : Nat) (frame : Bytes) : NextKeeps s (execUpFrameReceived line frame s) :=
  nextKeeps_commandEnd (State.Steady.keepsInv (.ite
    ((State.settled_takeDue_steady _).trans (State.takeUpFrame_steady ..))
    ((State.takeDue_steady _).trans (State.takeUpFrame_steady ..))))

theorem execAnswerTimeout_keeps (line : Nat) : NextKeeps s (execAnswerTimeout line s) := by
  refine nextKeeps_steady _ fun t => ?_
  split
  · exact .ite ((State.modLine_steady ..).trans (State.missTurn_steady ..)) (.same t)
  · exact .same t

theorem execFrameEndTimeout_keeps (line : Nat) : NextKeeps s (execFrameEndTimeout line s) :=
  nextKeeps_steady _ fun t => .ite (State.takeUpFrame_steady ..) (.same t)

theorem execAbandonedTurnEnd_keeps (line : Nat) : NextKeeps s (execAbandonedTurnEnd line s) := by
  refine nextKeeps_steady _ fun t => ?_
  split
  · exact .ite (State.endTurn_steady line) (.same t)
  · exact .same t

theorem execUpFrameFirstByte_keeps (line : Nat) : NextKeeps s (execUpFrameFirstByte line s) :=
  nextKeeps_steady _ fun t => .ite (State.modLine_steady ..) (.same t)

/-! ## Boundaries, notices and panel requests -/

theorem execTickReport_keeps (entries : List ReportEntry) : NextKeeps s (execTickReport entries s) :=
  nextKeeps_steady _ fun _ => afterCatchUp_steady _ _ (State.takeReport_steady entries)

theorem State.slotWork_steady (c : Instr) (work : List Instr) :
    s.Steady { s.markAll with due := putInPlace c work u.due } :=
  State.markAll_steady.trans (s.markAll.due_steady _)

theorem execSlotBoundary_keeps (day slot : Nat) : NextKeeps s (execSlotBoundary day slot s) :=
  nextKeeps_steady _ fun t => .ite (State.slotWork_steady ..) (.same t)

theorem execBookingSlotRun_keeps (day slot : Nat) : NextKeeps s (execBookingSlotRun day slot s) := by
  refine nextKeeps_afterEarlier _ _ fun t => State.Steady.keepsInv ?_
  exact State.Steady.trans (.ite State.markAll_steady (.same t)) (State.bookingBoundary_steady ..)

theorem execDispatcherSlotRun_keeps (slot : Nat) : NextKeeps s (execDispatcherSlotRun slot s) :=
  nextKeeps_afterEarlier _ _ fun _ => (State.dispatcherBoundary_steady slot).keepsInv

theorem execDayBoundary_keeps (oldDay : Nat) : NextKeeps s (execDayBoundary oldDay s) :=
  nextKeeps_afterEarlier _ _ fun t => State.Steady.keepsInv (.ite (State.dayParts_steady oldDay) (.same t))

theorem execWithdrawNotice_keeps (record : Nat) (slot : Option Nat) :
    NextKeeps s (execWithdrawNotice record slot s) := by
  refine nextKeeps_steady _ fun t => ?_
  split
  · exact .ite (.foldl (fun _ id => State.withdrawOrder_steady _ id) _ _) (.same t)
  · exact .same t

theorem execOrderOutcomeNotice_keeps (record : Nat) (order : OrderId) :
    NextKeeps s (execOrderOutcomeNotice record order s) := by
  refine nextKeeps_steady _ fun t => ?_
  split
  · exact .ite (State.changeRes_steady ..) (.same t)
  · exact .same t

theorem execKeyCheckIn_keeps (src : FrameFrom) : NextKeeps s (execKeyCheckIn src s) :=
  nextKeeps_steady _ fun t => State.panelRequest_steady _ _ _ _ _ (fun _ _ => State.judgeCheckIn_steady _) t

theorem execKeyEnd_keeps (src : FrameFrom) : NextKeeps s (execKeyEnd src s) :=
  nextKeeps_steady _ fun t => State.panelRequest_steady _ _ _ _ _ (fun _ _ => State.judgeEnd_steady _) t

theorem execKeyExtend_keeps (src : FrameFrom) : NextKeeps s (execKeyExtend src s) :=
  nextKeeps_steady _ fun t => State.panelRequest_steady _ _ _ _ _ (fun _ _ => State.judgeExtend_steady _) t

theorem execWalkup_keeps (src : FrameFrom) (n : Nat) : NextKeeps s (execWalkup src n s) :=
  nextKeeps_steady _ fun t => State.panelRequest_steady _ _ _ _ _ (fun _ _ => State.judgeWalkup_steady _ _) t

/-! ## The clock and the evidence -/

theorem Clock.advance_ok {c : Clock} (h : c.ok) : c.advance.ok := by
  obtain ⟨hsec, hmin, hday⟩ := h
  unfold Clock.advance
  split
  next => exact ⟨by simp only; omega, hmin, hday⟩
  next =>
    split
    · exact ⟨by simp only; omega, by simp only; omega, hday⟩
    · exact ⟨by simp only; omega, by simp only; omega, by simp only; omega⟩

/-- A change of the clock alone. -/
theorem State.setClock_keepsInv (c : Clock) (h : s.clock.ok → c.ok) : s.KeepsInv { s with clock := c } :=
  ⟨id, id, id, fun ⟨hc, he⟩ => ⟨h hc, he⟩⟩

theorem State.countDown_steady : s.Steady s.countDown where
  timeStep := rfl
  write := rfl
  bootMem := rfl
  range := id
  keeps h := ⟨h, fun _ => Nat.le_refl _⟩
  latch := id

theorem State.raiseTimed_steady (old : Clock) : s.Steady (s.raiseTimed old) := by
  have htick : s.Steady (if s.clock.seconds % 10 = 0 then s.hand .evidenceTick else s) :=
    .ite (State.hand_steady _) (.same s)
  unfold State.raiseTimed
  exact .ite (.ite (htick.trans (State.hand_steady _)) (.ite (htick.trans (State.hand_steady _)) htick)) htick

theorem execClockSecond_keeps : NextKeeps s (execClockSecond s) := by
  refine nextKeeps_run _ fun t => ?_
  split
  · exact .same t
  · exact (t.setClock_keepsInv _ Clock.advance_ok).trans
      (State.countDown_steady.trans (State.raiseTimed_steady _)).keepsInv

theorem Evidence.sample_ok {e : Evidence} (h : e.ok) {level : Nat} (hl : level ≤ 255) : (e.sample level).ok := by
  obtain ⟨hv, hp, hs, hr⟩ := h
  refine ⟨hv, ?_, hs, hr⟩
  simp only [Evidence.sample]
  split <;> omega

theorem Evidence.next_le (e : Evidence) (c : RoomClass) : e.next c ≤ 65535 := Nat.min_le_left ..

theorem Evidence.tick_ok {e : Evidence} (h : e.ok) (bound : Bool) (c : RoomClass) : (e.tick bound c).ok := by
  obtain ⟨hv, hp, hs, hr⟩ := h
  have hstale : (if e.sampleSeen = true then 0 else min 3 (e.stale + 1)) ≤ 3 := by split <;> omega
  have hrun (v : Verdict) : (if v = .vacant then min 255 (e.vacantRun + 1) else 0) ≤ 255 := by split <;> omega
  unfold Evidence.tick
  split
  next => exact ⟨Nat.zero_le _, Nat.zero_le _, Nat.zero_le _, Nat.zero_le _⟩
  next =>
    generalize (if e.sampleSeen = true then 0 else min 3 (e.stale + 1)) = stale at hstale
    simp only
    split
    next => exact ⟨hv, hp, Nat.le_refl _, hr⟩
    next => exact ⟨Evidence.next_le .., hp, hstale, hrun _⟩

/-- A change of one evidence record that keeps its ranges. -/
theorem State.modEv_keepsInv (r : Nat) {f : Evidence → Evidence} (h : (s.ev r).ok → (f (s.ev r)).ok) :
    s.KeepsInv (s.modEv r f) := by
  refine ⟨id, id, id, fun ⟨hc, he⟩ => ⟨hc, fun j => ?_⟩⟩
  by_cases hj : j = r
  · subst hj
    by_cases hlt : j < 48
    · rw [State.ev_modEv_same hlt]; exact h (he j)
    · have hout : (s.modEv j f).ev j = Evidence.reset := by simp [State.ev, hlt]
      rw [hout]
      exact ⟨Nat.zero_le _, Nat.zero_le _, Nat.zero_le _, Nat.zero_le _⟩
  · rw [State.ev_modEv_other hj]; exact he j

theorem execSample_keeps (src : FrameFrom) (level : Nat) : NextKeeps s (execSample src level s) := by
  refine nextKeeps_run _ fun t => ?_
  split
  · exact t.modEv_keepsInv _ fun h => Evidence.sample_ok h (Nat.min_le_left ..)
  · exact .same t

theorem execEntry_keeps (src : FrameFrom) (isOpen : Bool) : NextKeeps s (execEntry src isOpen s) := by
  refine nextKeeps_run _ fun t => ?_
  split
  · exact t.modEv_keepsInv _ id
  · exact .same t

theorem State.tickRoom_keepsInv (room : Nat) : s.KeepsInv (s.tickRoom room) := by
  have htick : s.KeepsInv (s.modEv room fun _ => (s.ev room).tick (s.boundSensor room).isSome (s.classOf room)) :=
    s.modEv_keepsInv room fun h => Evidence.tick_ok h _ _
  unfold State.tickRoom
  simp only
  split
  · exact htick.trans (State.raise_steady ..).keepsInv
  · exact htick

theorem State.KeepsInv.foldl {α : Type} {f : State → α → State} (h : ∀ (t : State) a, t.KeepsInv (f t a)) (l : List α)
    (s : State) : s.KeepsInv (l.foldl f s) := by
  induction l generalizing s with
  | nil => exact .same s
  | cons a l ih => exact (h s a).trans (ih _)

theorem execEvidenceTick_keeps : NextKeeps s (execEvidenceTick s) := by
  refine nextKeeps_run _ fun t => ?_
  split
  · exact .same t
  · exact (State.KeepsInv.foldl (fun _ r => State.tickRoom_keepsInv r) allRooms t).trans (State.hand_steady _).keepsInv

/-! ## TIME -/

/-- A TIME step begun: it owes one reply more, for which the request's reservation stands. -/
theorem State.beginStep_keepsInvFor {c : Clock} (hc : c.ok) (step : TimeStep) (htag : step.tag = tag)
    (h : s.timeStep = none) : s.KeepsInvFor .time tag { s with clock := c, timeStep := some step } where
  memory := id
  riser hr hk := by
    obtain ⟨hfits, howed⟩ := State.riserInv_iff.1 hr
    rw [State.hasReservation_iff] at hk
    refine State.riserInv_iff.2 ⟨hfits, fun k' tag' => ?_⟩
    have hold := howed k' tag'
    by_cases he : k' = .time ∧ tag' = tag
    · obtain ⟨rfl, rfl⟩ := he
      refine Nat.le_trans ?_ (Nat.succ_le_of_lt hk)
      simp [State.owed, h, htag]
    · have hne : ¬(k' = .time ∧ tag = tag') := fun e => he ⟨e.1, e.2.symm⟩
      simpa [State.owed, h, htag, hne] using hold
  latch := id
  range := fun ⟨_, he⟩ => ⟨hc, he⟩

theorem State.takeTime_keepsInvFor {day minute seconds : Nat} (hd : day ≤ 65535) (hm : minute ≤ 1439)
    (hs : seconds ≤ 59) (h : s.timeStep = none) : s.KeepsInvFor .time tag (s.takeTime tag day minute seconds) := by
  unfold State.takeTime
  simp only
  have hflush : s.Steady (if s.clock.classify day minute seconds = .flush then s.dayFlush else s) :=
    .ite State.dayFlush_steady (.same s)
  refine .of_steady hflush (.steady (State.beginStep_keepsInvFor
    (c := { isSet := true, seconds := seconds, minute := minute, day := day, periods := 0 }) ⟨hs, hm, hd⟩
    { tag := tag, kind := s.clock.classify day minute seconds, day := day, minute := minute, seconds := seconds
      boundaries := (s.clock.catchUp (s.clock.classify day minute seconds) day minute seconds).2 } rfl
    (hflush.timeStep.trans h)) ?_)
  exact ((State.cutSecond_steady.trans State.markAll_steady).trans (.foldl (fun _ c => State.hand_steady c) _ _)).trans
    (State.hand_steady _)

theorem execTime_keeps (tag : Tag) (day minute seconds : Nat) : NextKeeps s (execTime tag day minute seconds s) := by
  refine nextKeeps_serve _ fun t => ?_
  split
  next => exact .reply t ..
  next hrange =>
    split
    next => exact .reply t ..
    next hbusy =>
      simp only [State.clockBusy, Bool.or_eq_true, not_or, Option.not_isSome_iff_eq_none] at hbusy
      exact State.takeTime_keepsInvFor (by omega) (by omega) (by omega) hbusy.1

/-- The step's reply uses up the reservation that the step held. -/
theorem State.endStep_keepsInv {step : TimeStep} (h : s.timeStep = some step) (code : Code) (body : Body) :
    s.KeepsInv (({ s with timeStep := none }).reply .time step.tag code body) where
  memory := id
  riser hr := by
    obtain ⟨hfits, howed⟩ := State.riserInv_iff.1 hr
    refine (State.KeepsInvFor.reply { s with timeStep := none } .time step.tag code body).2 ?_ ?_
    · refine State.riserInv_iff.2 ⟨hfits, fun k tag => ?_⟩
      refine Nat.le_trans ?_ (howed k tag)
      simp [State.owed]
    · refine State.hasReservation_iff.2 (Nat.lt_of_lt_of_le ?_ (howed .time step.tag))
      simp [State.owed, h]
  latch := id
  range := id

theorem execTimeStepComplete_keeps : NextKeeps s (execTimeStepComplete s) := by
  refine nextKeeps_afterEarlier _ _ fun t => ?_
  split
  next h => exact State.endStep_keepsInv h ..
  next => exact .same t

/-! ## Resets and the boot load -/

theorem pageBase_add_le {a : Nat} (h : a < 8192) : pageBase a + 32 ≤ 8192 := by
  unfold pageBase; omega

theorem State.cutMemory_wf (h : s.memoryInv) : memWf s.cutMemory = true := by
  obtain ⟨hwf, hwrite⟩ := h
  unfold State.cutMemory
  split
  next w hw =>
    obtain ⟨hin, hwritten, hback, hpos⟩ := hwrite w hw
    split
    next => exact hwf
    next hb =>
      have hne : w.written ≠ w.run.length := fun e => hb (hback.2 e)
      exact memWf_spoilPage hwf (pageBase_add_le (by omega)) _
  next => exact hwf

theorem reset_latch (i : Nat) : State.reset.latch i = Latch.reset := by
  simp only [State.latch, State.reset, Vector.getElem?_replicate]
  split <;> rfl

theorem reset_ev (r : Nat) : State.reset.ev r = Evidence.reset := by
  simp only [State.ev, State.reset, Vector.getElem?_replicate]
  split <;> rfl

theorem Latch.reset_ok : Latch.reset.ok := ⟨Nat.zero_le _, fun _ => rfl, fun _ => ⟨rfl, rfl, rfl, rfl⟩⟩

theorem Evidence.reset_ok : Evidence.reset.ok := ⟨Nat.zero_le _, Nat.zero_le _, Nat.zero_le _, Nat.zero_le _⟩

theorem State.reset_latchInv : State.reset.latchInv := by
  refine ⟨fun i => ?_, List.nodup_nil, fun i => ?_⟩
  · rw [reset_latch]; exact Latch.reset_ok
  · rw [reset_latch]; simp [State.reset, Latch.reset]

theorem State.reset_rangeInv : State.reset.rangeInv := by
  refine ⟨⟨Nat.zero_le _, Nat.zero_le _, Nat.zero_le _⟩, fun r => ?_⟩
  rw [reset_ev]
  exact Evidence.reset_ok

theorem State.reset_owed (k : MsgKind) (tag : Tag) : State.reset.owed k tag = 0 := by
  simp [State.owed, State.reset, Boot.reset]

theorem State.reset_riserInv : State.reset.riserInv :=
  State.riserInv_iff.2 ⟨⟨Nat.zero_le _, Nat.zero_le _, Nat.zero_le _, Nat.zero_le _⟩, fun k tag =>
    by rw [State.reset_owed]; exact Nat.zero_le _⟩

theorem State.reset_memoryInv : State.reset.memoryInv := ⟨rfl, nofun⟩

/-- Settles O56. -/
theorem resetMeetsInvariants : Obligations.ResetMeetsInvariants :=
  ⟨State.reset_memoryInv, State.reset_riserInv, State.reset_latchInv, State.reset_rangeInv⟩

theorem State.chipReset_keepsInv : s.KeepsInv s.chipReset where
  memory h := ⟨State.cutMemory_wf h, nofun⟩
  riser _ := State.reset_riserInv
  latch _ := State.reset_latchInv
  range _ := State.reset_rangeInv

theorem execPowerOn_keeps : NextKeeps s (execPowerOn s) := nextKeeps_next State.chipReset_keepsInv

/-- The level of the reset input is outside the invariants. -/
theorem State.setResetLow_keepsInv (low : Bool) : s.KeepsInv { s with resetLow := low } := ⟨id, id, id, id⟩

theorem execResetInput_keeps : NextKeeps s (execResetInput s) :=
  nextKeeps_next (State.chipReset_keepsInv.trans (State.setResetLow_keepsInv false))

theorem execResetInputHeldLow_keeps : NextKeeps s (execResetInputHeldLow s) :=
  nextKeeps_next (State.chipReset_keepsInv.trans (State.setResetLow_keepsInv true))

theorem execRestartTimeout_keeps : NextKeeps s (execRestartTimeout s) := by
  refine nextKeeps_run _ fun t => ?_
  split
  · exact State.chipReset_keepsInv
  · exact .same t

theorem execRestart_keeps (tag : Tag) : NextKeeps s (execRestart tag s) :=
  nextKeeps_manage _ _ fun t => .steady (.reply t ..) (.of_eq rfl rfl rfl rfl rfl rfl rfl rfl)

theorem State.modBoot_steady {f : Boot → Boot} (h : (f s.boot).write = s.boot.write) : s.Steady (s.modBoot f) :=
  .of_eq rfl h rfl rfl rfl rfl rfl rfl

theorem execBootHeaderRead_keeps : NextKeeps s (execBootHeaderRead s) :=
  nextKeeps_steady _ fun t => .ite
    (.ite (State.endLoad_steady _) (.ite (State.endLoad_steady _)
      (.ite ((State.skip_steady ..).trans (State.endLoad_steady _)) (State.modBoot_steady rfl)))) (.same t)

theorem execBootRecordRead_keeps : NextKeeps s (execBootRecordRead s) := by
  refine nextKeeps_steady _ fun t => ?_
  split
  next offset _ _ _ =>
    have hskip (p : Prop) [Decidable p] (cause : SkipCause) : t.Steady (if p then t.skip offset cause else t) :=
      .ite (State.skip_steady ..) (.same t)
    exact .ite ((hskip _ _).trans (State.endLoad_steady _)) (.ite ((State.skip_steady ..).trans (State.endLoad_steady _))
      ((State.dealRecord_steady ..).trans (State.nextRecord_steady ..)))
  next => exact .same t

theorem execBootMemoryTimeout_keeps : NextKeeps s (execBootMemoryTimeout s) := by
  refine nextKeeps_steady _ fun t => ?_
  split
  next => exact State.endLoad_steady _
  next => exact (State.skip_steady ..).trans (State.endLoad_steady _)
  next => exact .same t

/-! ## BOOT_WRITE -/

/-- A write in flight that lies inside the memory (R188, R189). -/
def Write.ok (w : Write) : Prop :=
  w.offset + w.run.length ≤ 8192 ∧ w.written ≤ w.run.length ∧ (w.readback = true ↔ w.written = w.run.length) ∧
  1 ≤ w.run.length

theorem State.memoryInv_iff : s.memoryInv ↔ memWf s.bootMem = true ∧ ∀ w, s.boot.write = some w → w.ok := Iff.rfl

/-- A write begun: it owes one reply more, for which the request's reservation stands. -/
theorem State.beginWrite_keepsInvFor {w : Write} (hw : w.ok) (htag : w.tag = tag) (h : s.boot.write = none) :
    s.KeepsInvFor .bootWrite tag (s.modBoot fun b => { b with write := some w }) where
  memory := fun ⟨hwf, _⟩ => State.memoryInv_iff.2 ⟨hwf, fun _ e => by cases e; exact hw⟩
  riser hr hk := by
    obtain ⟨hfits, howed⟩ := State.riserInv_iff.1 hr
    rw [State.hasReservation_iff] at hk
    refine State.riserInv_iff.2 ⟨hfits, fun k' tag' => ?_⟩
    have hold := howed k' tag'
    by_cases he : k' = .bootWrite ∧ tag' = tag
    · obtain ⟨rfl, rfl⟩ := he
      refine Nat.le_trans ?_ (Nat.succ_le_of_lt hk)
      simp [State.owed, h, htag]
    · have hne : ¬(k' = .bootWrite ∧ tag = tag') := fun e => he ⟨e.1, e.2.symm⟩
      simpa [State.owed, h, htag, hne] using hold
  latch := id
  range := id

theorem execBootWrite_keeps (tag : Tag) (offset : Nat) (run : Bytes) : NextKeeps s (execBootWrite tag offset run s) := by
  refine nextKeeps_manage _ _ fun t => ?_
  unfold inRange
  split
  next hrange =>
    simp only [Bool.and_eq_true, decide_eq_true_eq] at hrange
    simp only
    split
    next => exact .reply t ..
    next hfree =>
      refine State.beginWrite_keepsInvFor ⟨hrange.2, Nat.zero_le _, ?_, hrange.1⟩ rfl
        (by simpa using hfree)
      exact ⟨nofun, fun e => absurd hrange.1 (by simp only at e; omega)⟩
  next => exact .reply t ..

/-- A write ends with what the memory then holds; its reply uses up the reservation that the write held. -/
theorem State.endWrite_keepsInv {w : Write} {m : List Host.Cell} {n : Nat} (h : s.boot.write = some w)
    (hm : s.memoryInv → memWf m = true) (code : Code) (body : Body) :
    s.KeepsInv (({ s with bootMem := m, freeCount := n }).endWrite w code body) where
  memory hi := ⟨hm hi, nofun⟩
  riser hr := by
    obtain ⟨hfits, howed⟩ := State.riserInv_iff.1 hr
    refine (State.KeepsInvFor.reply
      (({ s with bootMem := m, freeCount := n }).modBoot fun b => { b with write := none })
      .bootWrite w.tag code body).2 ?_ ?_
    · refine State.riserInv_iff.2 ⟨hfits, fun k tag => ?_⟩
      refine Nat.le_trans ?_ (howed k tag)
      simp [State.owed]
    · refine State.hasReservation_iff.2 (Nat.lt_of_lt_of_le ?_ (howed .bootWrite w.tag))
      simp [State.owed, h]
  latch := id
  range := id

theorem Write.chunk_le {w : Write} (h : w.written ≤ w.run.length) : w.written + w.chunk.length ≤ w.run.length := by
  rw [Write.chunk_length]; omega

/-- A page acknowledged: the memory holds its chunk, and the write goes on behind it or to the read-back. -/
theorem State.pageDone_keepsInv {w : Write} (h : s.boot.write = some w) :
    s.KeepsInv { s with
      bootMem := memWriteRun s.bootMem (w.offset + w.written) w.chunk
      boot := { s.boot with write := some { w with
        written := w.written + w.chunk.length, readback := decide (w.run.length ≤ w.written + w.chunk.length) } } } where
  memory := fun ⟨hwf, hwrite⟩ => by
    obtain ⟨hin, hwritten, hback, hpos⟩ := hwrite w h
    have hchunk := Write.chunk_le hwritten
    refine State.memoryInv_iff.2 ⟨memWf_memWriteRun hwf _ (by omega), fun v e => ?_⟩
    cases e
    refine ⟨hin, hchunk, ?_, hpos⟩
    simp only [decide_eq_true_eq]
    omega
  riser hr := by
    obtain ⟨hfits, howed⟩ := State.riserInv_iff.1 hr
    refine State.riserInv_iff.2 ⟨hfits, fun k tag => ?_⟩
    have hold := howed k tag
    simpa only [State.owed, h, Option.map_some] using hold
  latch := id
  range := id

theorem execBootPageWriteDone_keeps : NextKeeps s (execBootPageWriteDone s) := by
  refine nextKeeps_run _ fun t => ?_
  split
  next w hw =>
    split
    · exact .same t
    · exact State.pageDone_keepsInv hw
  next => exact .same t

theorem execBootWriteAckTimeout_keeps : NextKeeps s (execBootWriteAckTimeout s) := by
  refine nextKeeps_run _ fun t => ?_
  split
  next w hw =>
    split
    next => exact .same t
    next hb =>
      refine State.endWrite_keepsInv hw (fun ⟨hwf, hwrite⟩ => ?_) _ _
      obtain ⟨hin, hwritten, hback, hpos⟩ := hwrite w hw
      have hne : w.written ≠ w.run.length := fun e => hb (hback.2 e)
      exact memWf_spoilPage hwf (pageBase_add_le (by omega)) _
  next => exact .same t

theorem execBootReadbackDone_keeps (bytes : Bytes) : NextKeeps s (execBootReadbackDone bytes s) := by
  refine nextKeeps_run _ fun t => ?_
  split
  next w hw =>
    split
    next =>
      have hmem : t.memoryInv → memWf (memWriteRun t.bootMem w.offset (bytes.take w.run.length)) = true :=
        fun ⟨hwf, hwrite⟩ => memWf_memWriteRun hwf _ (by
          have := (hwrite w hw).1
          have := List.length_take_le w.run.length bytes
          omega)
      simp only
      split
      · exact State.endWrite_keepsInv hw hmem _ _
      · exact State.endWrite_keepsInv hw hmem _ _
    next => exact .same t
  next => exact .same t

/-! ## CLEAR -/

theorem State.clearLatch_steady {i : Nat} (hi : i < 121) (hs : (s.latch i).isSet = true)
    (hu : (s.latch i).unsent = false) : s.Steady (s.clearLatch i) where
  timeStep := by rw [State.clearLatch_frame]
  write := by rw [State.clearLatch_frame]
  bootMem := by rw [State.clearLatch_frame]
  range h := by rw [State.clearLatch_frame]; exact h
  keeps := by
    unfold State.clearLatch
    simp only
    split
    · exact .same rfl
    · exact State.Keeps.trans (t := s.modLatch i _) (.same rfl) (State.placeEvent_keeps i)
  latch h := State.clearLatch_latchInv hi h hs hu

theorem execClear_keeps (tag : Tag) (latch : Nat) : NextKeeps s (execClear tag latch s) := by
  refine nextKeeps_manage _ _ fun t => ?_
  unfold inRange
  split
  next hrange =>
    simp only [decide_eq_true_eq] at hrange
    simp only
    split
    next => exact .reply t ..
    next hsent =>
      refine .steady_reply ?_ ..
      split
      next hset => exact State.clearLatch_steady (by omega) hset (by simpa [hset] using hsent)
      next => exact .same t
  next => exact .reply t ..

/-! ## The Riser Port -/

/-- A change of the Riser Port that keeps its capacities and gives up no reservation. -/
theorem State.modRiser_steady {f : Riser → Riser} (h : s.Keeps (s.modRiser f)) : s.Steady (s.modRiser f) where
  timeStep := rfl
  write := rfl
  bootMem := rfl
  range := id
  keeps := h
  latch := id

/-- A change that the Riser Port's queues do not see. -/
theorem State.modRiser_steady_of_fits {f : Riser → Riser} (h : s.riser.Fits → (f s.riser).Fits)
    (hr : (f s.riser).reservations = s.riser.reservations) : s.Steady (s.modRiser f) :=
  State.modRiser_steady fun hf => ⟨h hf, fun x => by rw [State.modRiser_riser, hr]⟩

theorem execUplinkArrival_keeps (typeValue : Nat) (payload : Bytes) :
    NextKeeps s (execUplinkArrival typeValue payload s) := by
  refine nextKeeps_steady _ fun t => ?_
  split
  next => exact State.modRiser_steady_of_fits id rfl
  next =>
    split
    next => exact State.modRiser_steady_of_fits id rfl
    next m _ =>
      split
      next => exact State.modRiser_steady_of_fits id rfl
      next =>
        refine (State.showTimer_steady m.dest).trans ?_
        simp only
        split
        next hroom =>
          refine (State.modRiser_steady_of_fits (fun ⟨_, h2, h3, h4⟩ => ⟨?_, h2, h3, h4⟩) rfl).trans
            (State.handOnce_steady _)
          simp only [List.length_append, List.length_singleton]
          omega
        next => exact State.modRiser_steady_of_fits id rfl

theorem execOnwardArrival_keeps (typeValue : Nat) (payload : Bytes) :
    NextKeeps s (execOnwardArrival typeValue payload s) := by
  refine nextKeeps_steady _ fun t => ?_
  split
  next => exact State.modRiser_steady_of_fits id rfl
  next =>
    split
    next => exact State.modRiser_steady_of_fits id rfl
    next =>
      split
      next hroom =>
        refine State.modRiser_steady_of_fits (fun ⟨h1, h2, _, h4⟩ => ⟨h1, h2, ?_, h4⟩) rfl
        simp only [List.length_append, List.length_singleton]
        omega
      next => exact State.modRiser_steady_of_fits id rfl

theorem execRouteMessage_keeps : NextKeeps s (execRouteMessage s) :=
  nextKeeps_commandEnd (State.Steady.keepsInv (.ite State.settled_steady
    ((State.takeDue_steady _).trans State.tryRoute_steady)))

theorem execUplinkTransmitEnd_keeps : NextKeeps s (execUplinkTransmitEnd s) := by
  refine nextKeeps_run _ fun t => ?_
  split
  · exact State.chipReset_keepsInv
  · exact (State.modRiser_steady_of_fits id rfl).keepsInv

theorem execOnwardTransmitEnd_keeps : NextKeeps s (execOnwardTransmitEnd s) :=
  nextKeeps_steady _ fun _ => State.modRiser_steady_of_fits id rfl

theorem execUplinkLinkChange_keeps (up : Bool) : NextKeeps s (execUplinkLinkChange up s) := by
  unfold execUplinkLinkChange
  split
  · exact nextKeeps_next (State.modRiser_steady_of_fits id rfl).keepsInv
  · exact nextKeeps_steady _ fun _ => State.modRiser_steady_of_fits id rfl

theorem execOnwardLinkChange_keeps (up : Bool) : NextKeeps s (execOnwardLinkChange up s) := by
  unfold execOnwardLinkChange
  split
  · exact nextKeeps_next (State.modRiser_steady_of_fits id rfl).keepsInv
  · exact nextKeeps_steady _ fun _ => State.modRiser_steady_of_fits id rfl

theorem execOfflineTimerExpiry_keeps : NextKeeps s (execOfflineTimerExpiry s) :=
  nextKeeps_steady _ fun t => .ite
    (((State.modRiser_steady_of_fits id rfl).trans State.markAll_steady).trans (State.raise_steady ..)) (.same t)

/-! ## Every step -/

theorem exec_keeps (c : Instr) (s : State) : NextKeeps s (exec c s) := by
  cases c with
  | powerOn => exact execPowerOn_keeps
  | resetInput => exact execResetInput_keeps
  | bootHeaderRead => exact execBootHeaderRead_keeps
  | bootRecordRead => exact execBootRecordRead_keeps
  | bootMemoryTimeout => exact execBootMemoryTimeout_keeps
  | uplinkArrival => exact execUplinkArrival_keeps _ _
  | onwardArrival => exact execOnwardArrival_keeps _ _
  | routeMessage => exact execRouteMessage_keeps
  | uplinkTransmitEnd => exact execUplinkTransmitEnd_keeps
  | onwardTransmitEnd => exact execOnwardTransmitEnd_keeps
  | uplinkLinkChange => exact execUplinkLinkChange_keeps _
  | onwardLinkChange => exact execOnwardLinkChange_keeps _
  | offlineTimerExpiry => exact execOfflineTimerExpiry_keeps
  | book => exact execBook_keeps _ _ _
  | alter => exact execAlter_keeps _ _ _
  | withdraw => exact execWithdraw_keeps _ _ _
  | contentRoom => exact execContentRoom_keeps _ _ _ _
  | contentDrop => exact execContentDrop_keeps _ _ _ _
  | service => exact execService_keeps _ _ _
  | time => exact execTime_keeps _ _ _ _
  | timeStepComplete => exact execTimeStepComplete_keeps
  | loadFloorRecord tag entry rec => exact nextKeeps_load _ true 0 entry (.floorRecord entry rec)
  | loadRoomMap tag entry code => exact nextKeeps_bookingLoad _ 1 entry (.roomMap entry code)
  | loadRoomClass tag entry fields => exact nextKeeps_load _ true 2 entry (.roomClass entry fields)
  | loadRoomTable tag entry cls => exact nextKeeps_bookingLoad _ 3 entry (.roomTable entry cls)
  | loadDropTable tag drop fields => exact nextKeeps_load _ true 4 (dropByte drop) (.dropTable drop fields)
  | loadLineConfig tag line fields => exact nextKeeps_load _ _ 5 line (.lineConfig line fields)
  | loadPantryConfig tag pantry fields => exact nextKeeps_load _ true 6 pantry (.pantryConfig pantry fields)
  | readFloorRecord => exact nextKeeps_read _ true fun t => .floorRecord t.floor
  | readRoomMap _ _ entry => exact nextKeeps_readIn _ _ fun t => .roomMap (t.roomMap[entry]?.getD none)
  | readRoomClass _ _ entry => exact nextKeeps_readIn _ _ fun t => .roomClass (t.classes[entry]?.getD RoomClass.reset)
  | readRoomTable _ _ entry =>
    exact nextKeeps_readIn _ _ fun t =>
      Body.roomTable (t.room entry).cls (t.boundPanels entry) (t.boundSensor entry) (t.room entry).service
  | readPantryConfig _ _ entry =>
    exact nextKeeps_read _ _ fun t =>
      Body.pantryConfig (t.pantry entry).drop (t.pantry entry).lead (t.pantry entry).timeoutCode
  | readReservation => exact execReadReservation_keeps _ _ _
  | readOrder => exact execReadOrder_keeps _ _ _
  | readEvidence _ _ room => exact nextKeeps_readIn _ _ fun t => .evidence (t.ev room)
  | readDrop => exact execReadDrop_keeps _ _ _
  | readLine => exact execReadLine_keeps _ _ _
  | readPantryLink => exact execReadPantryLink_keeps _ _ _
  | readRiserPort => exact execReadRiserPort_keeps _ _
  | readFloorClock => exact nextKeeps_read _ true fun t => .floorClock t.clock t.curSlot t.clockBusy
  | readEventLatch _ _ latch =>
    exact nextKeeps_readIn _ _ fun t =>
      Body.eventLatch (t.latch latch) (if latch = floorLatch then some (t.flushCount, t.discardCount) else none)
  | readEventSummary =>
    exact nextKeeps_read _ true fun t =>
      Body.eventSummary ((List.range 121).filter fun i => (t.latch i).isSet) t.unsent
  | readBootStatus => exact nextKeeps_read _ true fun t => .bootStatus t.boot
  | listDirty => exact execListDirty_keeps _ _
  | markClean => exact execMarkClean_keeps _ _ _
  | linePowerOn => exact execLinePowerOn_keeps _ _
  | linePowerOff => exact execLinePowerOff_keeps _ _
  | lineBreak => exact execLineBreak_keeps _ _
  | dropMode => exact execDropMode_keeps _ _ _
  | roomClose => exact execRoomClose_keeps _ _
  | roomOpen => exact execRoomOpen_keeps _ _
  | pantryResync => exact execPantryResync_keeps _ _
  | clear => exact execClear_keeps _ _
  | bootWrite => exact execBootWrite_keeps _ _ _
  | bootPageWriteDone => exact execBootPageWriteDone_keeps
  | bootWriteAckTimeout => exact execBootWriteAckTimeout_keeps
  | bootReadbackDone => exact execBootReadbackDone_keeps _
  | restart => exact execRestart_keeps _
  | restartTimeout => exact execRestartTimeout_keeps
  | clockSecond => exact execClockSecond_keeps
  | evidenceTick => exact execEvidenceTick_keeps
  | tickReport => exact execTickReport_keeps _
  | slotBoundary => exact execSlotBoundary_keeps _ _
  | bookingSlotRun => exact execBookingSlotRun_keeps _ _
  | dispatcherSlotRun => exact execDispatcherSlotRun_keeps _
  | dayBoundary => exact execDayBoundary_keeps _
  | withdrawNotice => exact execWithdrawNotice_keeps _ _
  | orderOutcomeNotice => exact execOrderOutcomeNotice_keeps _ _
  | keyCheckIn => exact execKeyCheckIn_keeps _
  | keyEnd => exact execKeyEnd_keeps _
  | keyExtend => exact execKeyExtend_keeps _
  | walkup => exact execWalkup_keeps _ _
  | sample => exact execSample_keeps _ _
  | entry => exact execEntry_keeps _ _
  | pantryStatus => exact execPantryStatus_keeps _ _
  | replayTimerExpiry => exact execReplayTimerExpiry_keeps _
  | settlingEnd => exact execSettlingEnd_keeps _
  | breakLowEnd => exact execBreakLowEnd_keeps _
  | breakQuietEnd => exact execBreakQuietEnd_keeps _
  | powerFault => exact execPowerFault_keeps _
  | walkPhase => exact execWalkPhase_keeps _
  | downFrameSent => exact execDownFrameSent_keeps _
  | upFrameReceived => exact execUpFrameReceived_keeps _ _
  | answerTimeout => exact execAnswerTimeout_keeps _
  | frameEndTimeout => exact execFrameEndTimeout_keeps _
  | abandonedTurnEnd => exact execAbandonedTurnEnd_keeps _
  | upFrameFirstByte => exact execUpFrameFirstByte_keeps _
  | resetInputHeldLow => exact execResetInputHeldLow_keeps

theorem step_keepsInv {s t : State} (h : step s = .next t) : s.KeepsInv t := by
  unfold step at h
  split at h
  next c rest _ =>
    have hpop : s.KeepsInv { s with pending := rest } := ⟨id, id, id, id⟩
    exact hpop.trans (exec_keeps c _ t h)
  next =>
    split at h
    next c _ _ => exact exec_keeps c s t h
    next => cases h; exact .same s

/-- Settles O57. -/
theorem stepsKeepTheMemoryInvariant : Obligations.StepsKeepTheMemoryInvariant :=
  fun _ _ hinv hstep => (step_keepsInv hstep).memory hinv

/-- Settles O58. -/
theorem stepsKeepTheRiserInvariant : Obligations.StepsKeepTheRiserInvariant :=
  fun _ _ hinv hstep => (step_keepsInv hstep).riser hinv

/-- Settles O59. -/
theorem stepsKeepTheLatchInvariant : Obligations.StepsKeepTheLatchInvariant :=
  fun _ _ hinv hstep => (step_keepsInv hstep).latch hinv

/-- Settles O60. -/
theorem stepsKeepTheRanges : Obligations.StepsKeepTheRanges :=
  fun _ _ hinv hstep => (step_keepsInv hstep).range hinv

end Sys2Proof.Machine
end

section
/-! PROOFS. Runs over a list: what a run leaves, and what it makes of one entry of a table when each of its steps changes the
entry of its own index alone. -/

namespace Sys2Proof.Machine

/-- A run is related to its start as its steps are. -/
theorem foldl_frame {α : Type} {f : State → α → State} (R : State → State → Prop) (same : ∀ s, R s s)
    (trans : ∀ {s t u}, R s t → R t u → R s u) (h : ∀ s a, R s (f s a)) (l : List α) (s : State) :
    R s (l.foldl f s) := by
  induction l generalizing s with
  | nil => exact same s
  | cons a l ih => exact trans (h s a) (ih _)

/-- What no step of a run changes, the run does not change. -/
theorem foldl_read {α β : Type} {f : State → α → State} (read : State → β) (h : ∀ s a, read (f s a) = read s)
    (l : List α) (s : State) : read (l.foldl f s) = read s :=
  foldl_frame (fun s t => read t = read s) (fun _ => rfl) (fun h k => k.trans h) h l s

/-- A run, at the step of one of its entries. -/
theorem foldl_at {α : Type} {l : List α} (hl : l.Nodup) {a : α} (ha : a ∈ l) :
    ∃ before after : List α, a ∉ before ∧ a ∉ after ∧
      ∀ (f : State → α → State) s, l.foldl f s = after.foldl f (f (before.foldl f s) a) := by
  obtain ⟨before, after, rfl⟩ := List.append_of_mem ha
  rw [List.nodup_append, List.nodup_cons] at hl
  obtain ⟨-, ⟨hafter, -⟩, hdisjoint⟩ := hl
  exact ⟨before, after, fun h => hdisjoint a h a List.mem_cons_self rfl, hafter,
    fun f s => by rw [List.foldl_append, List.foldl_cons]⟩

section

variable {ι β : Type} (read : State → ι → β) (f : State → ι → State)
  (other : ∀ t i j, j ≠ i → read (f t i) j = read t j)
include other

/-- An entry that no step of the run is for. -/
theorem foldl_local_not_mem {l : List ι} (s : State) {i : ι} (hi : i ∉ l) : read (l.foldl f s) i = read s i := by
  induction l generalizing s with
  | nil => rfl
  | cons a l ih =>
    rw [List.mem_cons, not_or] at hi
    rw [List.foldl_cons, ih _ hi.2, other _ _ _ hi.1]

/-- An entry that one step of the run is for: that step finds it as it was at the start, and the others leave it. -/
theorem foldl_local_mem {l : List ι} (hl : l.Nodup) (s : State) {i : ι} (hi : i ∈ l) :
    ∃ u, read u i = read s i ∧ read (l.foldl f s) i = read (f u i) i := by
  induction l generalizing s with
  | nil => cases hi
  | cons a l ih =>
    rw [List.nodup_cons] at hl
    rw [List.foldl_cons]
    rcases List.mem_cons.1 hi with rfl | hmem
    · exact ⟨s, rfl, foldl_local_not_mem read f other _ hl.1⟩
    · have hne : i ≠ a := fun e => hl.1 (e ▸ hmem)
      obtain ⟨u, hu, hfold⟩ := ih hl.2 (f s a) hmem
      exact ⟨u, hu.trans (other _ _ _ hne), hfold⟩

end

end Sys2Proof.Machine
end

section
/-! PROOFS. Steps and resets (R190, R197), and the values that the blocks hold after a reset. -/

namespace Sys2Proof.Machine

variable {s : State}

/-- Settles O1. -/
theorem stepTakesFrontCommand : Obligations.StepTakesFrontCommand :=
  ⟨fun _ _ _ => rfl, fun _ _ _ => rfl, fun _ => rfl⟩

/-- Settles O2: every command but the resets and the links ends in `commandEnd`, which keeps a state that is held low. -/
theorem heldLowChangesNothing : Obligations.HeldLowChangesNothing := by
  intro c s hlow
  refine ⟨fun h1 h2 h3 h4 h5 => ?_, fun up => ?_, fun up => ?_⟩
  · obtain ⟨t, ht⟩ := exec_ends c s h1 h2 h3 h4 h5
    rw [ht, commandEnd_held hlow]
  · show execUplinkLinkChange up s = _
    rw [execUplinkLinkChange, if_pos hlow]; rfl
  · show execOnwardLinkChange up s = _
    rw [execOnwardLinkChange, if_pos hlow]; rfl

/-! ## The transmitters on empty queues -/

theorem State.startUplink_idle (h : s.riser.uplinkTx ≠ none ∨ s.riser.uplinkUp = false ∨
    (s.riser.localQueue = [] ∧ s.riser.upwardQueue = [])) : s.startUplink = s := by
  have hstop : (s.riser.uplinkTx.isSome || !s.riser.uplinkUp ||
      (s.riser.localQueue.isEmpty && s.riser.upwardQueue.isEmpty)) = true := by
    rcases h with h | h | ⟨h1, h2⟩
    · simp [Option.isSome_iff_ne_none.2 h]
    · simp [h]
    · simp [h1, h2]
  rw [State.startUplink]
  exact if_pos hstop

theorem State.startOnward_idle (h : s.riser.onwardTx ≠ none ∨ s.riser.onwardUp = false ∨ s.riser.onwardQueue = []) :
    s.startOnward = s := by
  unfold State.startOnward
  split
  next h1 h2 h3 => rcases h with h | h | h <;> simp_all
  next => rfl

/-- The transmitters find nothing to take after a reset. -/
theorem State.chipReset_sent (s : State) : s.chipReset.sent = s.chipReset := by
  rw [State.sent, State.startUplink_idle (.inr (.inr ⟨rfl, rfl⟩)), State.startOnward_idle (.inr (.inr rfl))]

/-! ## The boot memory in a reset -/

theorem State.cutMemory_outside {w : Write} (h : s.boot.write = some w) (hb : w.readback = false) {a : Nat}
    (ha : a < pageBase (w.offset + w.written) ∨ pageBase (w.offset + w.written) + 32 ≤ a) :
    memRead s.cutMemory a = memRead s.bootMem a := by
  simp only [State.cutMemory, h, hb, Bool.false_eq_true, if_false]
  exact memRead_spoilPage _ _ ha

theorem State.cutMemory_eq (h : s.boot.write.all Write.readback = true) : s.cutMemory = s.bootMem := by
  unfold State.cutMemory
  split
  next w hw =>
    rw [hw, Option.all_some] at h
    exact if_pos h
  next => rfl

/-- Settles O3: each reset is `chipReset`, in which the transmitters find nothing to take. -/
theorem resetsTakeEveryBlockBack : Obligations.ResetsTakeEveryBlockBack := by
  intro s back
  have hback (hlow : s.resetLow = false) (c : Instr) : (s.takeDue c).chipReset = back false := by
    rw [← hlow]; rfl
  refine ⟨rfl, rfl, rfl, fun tag hrest htag => ?timeout, fun tag b f hrest htag htx => ?sent,
    fun w hw hb a => State.cutMemory_outside hw hb, State.cutMemory_eq⟩
  case timeout =>
    show execRestartTimeout s = _
    rw [execRestartTimeout, run_next hrest, State.takeDue_restart, htag, Option.isSome_some, if_pos rfl,
      State.chipReset_sent, hback hrest.1]
  case sent =>
    have hreply : (s.takeDue .uplinkTransmitEnd).restartReplySent = true := by
      simp [State.restartReplySent, htag, htx]
    show execUplinkTransmitEnd s = _
    rw [execUplinkTransmitEnd, run_next hrest, if_pos hreply, State.chipReset_sent, hback hrest.1]

/-! ## Reset values -/

/-- An entry of a table in its reset state, inside the table or not. -/
theorem replicate_getD {α : Type} (n i : Nat) (a : α) : ((Vector.replicate n a)[i]?).getD a = a := by
  rw [Vector.getElem?_replicate]
  split <;> rfl

theorem reset_room (r : Nat) : State.reset.room r = RoomEntry.reset := replicate_getD ..

theorem reset_res (i : Nat) : State.reset.res i = none := replicate_getD ..

theorem reset_pantry (p : Nat) : State.reset.pantry p = Pantry.reset := replicate_getD ..

theorem reset_line (l : Nat) : State.reset.line l = Line.reset := replicate_getD ..

theorem reset_drop (c : DropCode) : State.reset.drop c = Drop.reset := by
  unfold State.drop
  split
  · exact replicate_getD ..
  · rfl

/-- The schedule after a reset names addresses 1 to 15 before each of its two PROBE phases (R121). -/
theorem resetSchedule_addresses : ∀ k : Fin 15,
    resetSchedule[(k : Nat)]? = some (.address (k + 1)) ∧ resetSchedule[16 + (k : Nat)]? = some (.address (k + 1)) := by
  decide

/-- Settles O4. -/
theorem resetStateHoldsTableValues : Obligations.ResetStateHoldsTableValues := by
  refine ⟨rfl, fun i hi => ?classes, ?riser, rfl, fun i hi => ?map, reset_room, reset_res, rfl, reset_ev, reset_pantry,
    fun l => ?line, fun c => ?drop, reset_latch, rfl, rfl, rfl, rfl, rfl, rfl, rfl, rfl, rfl, rfl, rfl⟩
  case classes => exact (Vector.getElem?_replicate ..).trans (if_pos hi)
  case riser => rintro x rfl; simp only [State.reset, Riser.reset, and_self]
  case map => exact (Vector.getElem?_replicate ..).trans (if_pos hi)
  case line =>
    rw [reset_line]
    exact ⟨rfl, rfl, fun k hk => resetSchedule_addresses ⟨k, hk⟩, by decide, by decide, rfl, rfl, rfl, rfl, rfl, rfl, rfl,
      rfl, rfl⟩
  case drop => rw [reset_drop]; exact ⟨rfl, rfl, rfl, rfl, rfl, rfl, rfl, rfl, rfl, rfl, rfl, rfl⟩

end Sys2Proof.Machine
end

section
/-! PROOFS. The boot load: the header of the image, its records, and the end of the load (R198, R199, R201). -/

namespace Sys2Proof.Machine

variable {s : State}

/-! ## The header (R198) -/

/-- What BOOT_HEADER_READ makes of the header. -/
theorem exec_bootHeaderRead (h : s.atRest) (hp : s.boot.phase = .header) {t : State} (ht : t = s.takeDue .bootHeaderRead)
    {len : Nat} (hlen : len = rd16 (memRead s.bootMem 2) (memRead s.bootMem 3)) :
    exec .bootHeaderRead s = .next (
      if memRead s.bootMem 0 ≠ 0xE4 ∨ memRead s.bootMem 1 ≠ 0x60 then t.endLoad (some .badSignature)
      else if 8188 < len then t.endLoad (some .badLength)
      else if len = 0 then (t.skip 4 .noFloorRecord).endLoad none
      else t.modBoot fun b => { b with phase := .records 4 (4 + len) true }).sent := by
  subst ht hlen
  show execBootHeaderRead s = _
  rw [execBootHeaderRead, run_next h, if_pos (by exact hp)]
  rfl

theorem exec_bootMemoryTimeout (h : s.atRest) :
    exec .bootMemoryTimeout s = .next ((fun t : State => match s.boot.phase with
      | .header => t.endLoad (some .noMemory)
      | .records offset _ _ => (t.skip offset .memoryFault).endLoad none
      | .idle => t) (s.takeDue .bootMemoryTimeout)).sent := by
  show execBootMemoryTimeout s = _
  rw [execBootMemoryTimeout, run_next h]
  rfl

/-- Settles O5: the checks of the header in their order. -/
theorem bootHeaderIsJudged : Obligations.BootHeaderIsJudged := by
  intro s hrest t len signed
  have hexec (hp : s.boot.phase = .header) := exec_bootHeaderRead hrest hp (t := t) rfl (len := len) rfl
  have hsigned (hs : signed) : ¬(memRead s.bootMem 0 ≠ 0xE4 ∨ memRead s.bootMem 1 ≠ 0x60) := by
    rw [← not_and_or]
    exact not_not.2 hs
  refine ⟨fun hp hs => ?unsigned, fun hp hs hl => ?long, fun hp hs hl => ?empty, fun hp hs h1 h2 => ?good,
    fun hp => ?header, fun offset limit first hp => ?record⟩
  case unsigned => rw [hexec hp, if_pos (not_and_or.1 hs)]
  case long => rw [hexec hp, if_neg (hsigned hs), if_pos hl]
  case empty => rw [hexec hp, if_neg (hsigned hs), if_neg (by omega), if_pos hl]
  case good => rw [hexec hp, if_neg (hsigned hs), if_neg (by omega), if_neg (by omega)]; rfl
  case header => rw [exec_bootMemoryTimeout hrest, hp]
  case record => rw [exec_bootMemoryTimeout hrest, hp]

/-! ## A record (R199) -/

/-- A record that its owner takes is counted as applied, and as clamped with a clamped value. -/
def State.countApplied (u : State) (clamped : Bool) : State :=
  { u with boot := { u.boot with
      applied := min (u.boot.applied + 1) 65535
      clamped := if clamped then min (u.boot.clamped + 1) 65535 else u.boot.clamped } }

theorem State.bootLoad_ok {r : LoadReq} {u : State} {clamped : Bool} (h : s.load r = .ok (u, clamped)) (offset : Nat)
    (cause : SkipCause) : s.bootLoad offset r cause = u.countApplied clamped := by
  simp only [State.bootLoad, h]
  rfl

theorem State.bootLoad_error {r : LoadReq} {code : Code} (h : s.load r = .error code) (offset : Nat)
    (cause : SkipCause) : s.bootLoad offset r cause = s.skip offset cause := by
  simp only [State.bootLoad, h]

theorem State.dealRecord_badRecord {body : Bytes} (h : parseLoad body = none) (offset : Nat) (first : Bool) :
    s.dealRecord offset first body = s.skip offset .badRecord := by
  simp only [State.dealRecord, h]

theorem State.dealRecord_floor {body : Bytes} {n : Nat} {rec : FloorRecord}
    (h : parseLoad body = some (.floorRecord n rec)) (offset : Nat) (first : Bool) :
    s.dealRecord offset first body =
      s.bootLoad offset (.floorRecord n rec) (if first then .noFloorRecord else .badTable) := by
  simp only [State.dealRecord, h]

theorem State.dealRecord_other {body : Bytes} {r : LoadReq} (h : parseLoad body = some r)
    (hr : ¬ ∃ n rec, r = .floorRecord n rec) (offset : Nat) (first : Bool) :
    s.dealRecord offset first body =
      (if first then s.skip offset .noFloorRecord else s).bootLoad offset r .badTable := by
  unfold State.dealRecord
  rw [h]
  cases r with
  | floorRecord n rec => exact absurd ⟨n, rec, rfl⟩ hr
  | _ => rfl

/-- A record that is not the image's first is refused with BAD_TABLE, whatever its table. -/
theorem State.dealRecord_later {body : Bytes} {r : LoadReq} (h : parseLoad body = some r) (offset : Nat) :
    s.dealRecord offset false body = s.bootLoad offset r .badTable := by
  by_cases hr : ∃ n rec, r = .floorRecord n rec
  · obtain ⟨n, rec, rfl⟩ := hr
    rw [State.dealRecord_floor h]; rfl
  · rw [State.dealRecord_other h hr]; rfl

/-- What BOOT_RECORD_READ makes of the record at an offset. -/
theorem exec_bootRecordRead (h : s.atRest) {offset limit : Nat} {first : Bool}
    (hp : s.boot.phase = .records offset limit first) {len : Nat} (hlen : len = (memRead s.bootMem offset).toNat)
    {t : State} (ht : t = s.takeDue .bootRecordRead) :
    exec .bootRecordRead s = .next (
      if len = 0 then (if first then t.skip offset .noFloorRecord else t).endLoad none
      else if limit < offset + 1 + len then (t.skip offset .truncated).endLoad none
      else (t.dealRecord offset first (memReadRun s.bootMem (offset + 1) len)).nextRecord (offset + 1 + len)
        limit).sent := by
  subst hlen ht
  show execBootRecordRead s = _
  rw [execBootRecordRead, run_next h]
  simp only [State.takeDue_boot, hp, State.takeDue_bootMem]
  rfl

theorem State.skip_counts (offset : Nat) (cause : SkipCause) :
    (s.skip offset cause).boot.skipped = min (s.boot.skipped + 1) 65535 ∧
    (s.boot.firstSkip = none → (s.skip offset cause).boot.firstSkip = some (offset, cause)) ∧
    (s.boot.firstSkip ≠ none → (s.skip offset cause).boot.firstSkip = s.boot.firstSkip) := by
  refine ⟨rfl, fun h => ?_, fun h => ?_⟩
  · simp only [State.skip, State.modBoot_boot, h]
  · obtain ⟨x, hx⟩ := Option.ne_none_iff_exists'.1 h
    simp only [State.skip, State.modBoot_boot, hx]

theorem State.nextRecord_goesOn {past limit : Nat} (h : past < limit) :
    s.nextRecord past limit = { s with boot := { s.boot with phase := .records past limit false } } := by
  rw [State.nextRecord, if_neg (by omega)]; rfl

theorem State.nextRecord_ends {past limit : Nat} (h : limit ≤ past) : s.nextRecord past limit = s.endLoad none := by
  rw [State.nextRecord, if_pos h]

/-- Settles O6: by the record's length, its form, its place in the image, and its owner's answer. -/
theorem bootRecordIsDealtWith : Obligations.BootRecordIsDealtWith := by
  intro s offset limit first hrest hp t len body past counted
  have hexec := exec_bootRecordRead hrest hp (len := len) rfl (t := t) rfl
  have hdeal (h1 : 1 ≤ len) (h2 : past ≤ limit) :
      exec .bootRecordRead s = .next ((t.dealRecord offset first body).nextRecord past limit).sent := by
    rw [hexec, if_neg (Nat.ne_of_gt h1), if_neg (Nat.not_lt.2 h2)]
  refine ⟨fun h0 hf => ?none, fun h0 hf => ?missing, fun h1 h2 => ?truncated, fun h1 h2 hb => ?form,
    fun r h1 h2 hb => ?record, State.skip_counts offset, fun u => State.nextRecord_goesOn,
    fun u => State.nextRecord_ends⟩
  case none => rw [hexec, if_pos h0, hf]; rfl
  case missing => rw [hexec, if_pos h0, hf]; rfl
  case truncated => rw [hexec, if_neg (Nat.ne_of_gt h1), if_pos h2]
  case form => rw [hdeal h1 h2, State.dealRecord_badRecord hb]
  case record =>
    intro isFloor v
    rw [hdeal h1 h2]
    refine ⟨fun hf u clamped hl => ?taken, fun hf code hl => ?refused, fun hf hr code hl => ?refusedFloor,
      fun hf hr u clamped hl => ?takenFirst, fun hf hr code hl => ?refusedFirst⟩
    case taken =>
      rcases hf with hf | ⟨n, rec, hr⟩
      · rw [hf, State.dealRecord_later hb, State.bootLoad_ok hl]; rfl
      · rw [State.dealRecord_floor (hr ▸ hb), ← hr, State.bootLoad_ok hl]; rfl
    case refused => rw [hf, State.dealRecord_later hb, State.bootLoad_error hl]
    case refusedFloor =>
      obtain ⟨n, rec, hr⟩ := hr
      rw [hf, State.dealRecord_floor (hr ▸ hb), ← hr, State.bootLoad_error hl]; rfl
    case takenFirst => rw [hf, State.dealRecord_other hb hr, if_pos rfl, State.bootLoad_ok hl]; rfl
    case refusedFirst => rw [hf, State.dealRecord_other hb hr, if_pos rfl, State.bootLoad_error hl]

/-! ## The end of the load (R201) -/

/-- A line that is switched on was off or in FAULT, so no drop leaves it. -/
theorem State.powerOn_eq (l : Nat) : s.powerOn l =
    if (s.line l).state = .off ∨ (s.line l).state = .fault then
      s.modLine l fun x => { x with state := .settling, feed := true, breakLow := false }
    else s := by
  unfold State.powerOn State.setLine
  split
  next h =>
    have hidle : (s.line l).state ≠ .running := by rcases h with h | h <;> simp [h]
    rw [if_neg hidle]
  next => rfl

theorem State.powerOn_frame (l : Nat) : s.powerOn l = { s with lines := (s.powerOn l).lines } := by
  rw [State.powerOn_eq]
  split <;> rfl

theorem State.powerAtStart_frame (l : Nat) : s.powerAtStart l = { s with lines := (s.powerAtStart l).lines } := by
  unfold State.powerAtStart
  split
  · exact State.powerOn_frame l
  · rfl

theorem State.line_powerAtStart_other {l j : Nat} (h : j ≠ l) : (s.powerAtStart l).line j = s.line j := by
  unfold State.powerAtStart
  rw [State.powerOn_eq]
  split
  · split
    · exact State.line_modLine_other h _
    · rfl
  · rfl

/-- A line that was off, at the end of the load. -/
theorem State.line_powerAtStart {l : Nat} (hl : l < 4) (h : (s.line l).state = .off) :
    ((s.powerAtStart l).line l).state = (if (s.line l).powerAtStart then .settling else .off) ∧
    (((s.powerAtStart l).line l).feed = true ↔ (s.line l).powerAtStart = true ∨ (s.line l).feed = true) := by
  unfold State.powerAtStart
  split
  next hp => simp [State.powerOn_eq, h, State.line_modLine_same hl, hp]
  next hp => simp [h, hp]

theorem State.setService_frame (room : Nat) (x : Service) :
    s.setService room x = { s with rooms := (s.setService room x).rooms, drops := (s.setService room x).drops } := rfl

theorem State.room_setService_same {r : Nat} (h : r < 48) (x : Service) :
    (s.setService r x).room r = { s.room r with service := x } :=
  State.room_modRoom_same (s := s) h fun e => { e with service := x }

theorem State.room_setService_other {r j : Nat} (h : j ≠ r) (x : Service) : (s.setService r x).room j = s.room j :=
  State.room_modRoom_other (s := s) h _

theorem State.closeAtStart_frame (room : Nat) : s.closeAtStart room =
    { s with rooms := (s.closeAtStart room).rooms, drops := (s.closeAtStart room).drops } := by
  unfold State.closeAtStart
  split <;> rfl

theorem State.room_closeAtStart_other {r j : Nat} (h : j ≠ r) : (s.closeAtStart r).room j = s.room j := by
  unfold State.closeAtStart
  split
  · exact State.room_setService_other h _
  · rfl

theorem State.room_closeAtStart {r : Nat} (h : r < 48) : (s.closeAtStart r).room r =
    { s.room r with service := if (s.classOf r).closedAtStart then .closed else (s.room r).service } := by
  unfold State.closeAtStart
  split
  next => exact State.room_setService_same h _
  next => rfl

/-- The class a room names, from the two tables it is read from. -/
def classIn (x : RoomEntry × Vector RoomClass 8) : RoomClass := x.2[x.1.cls]?.getD RoomClass.reset

theorem State.classOf_eq (r : Nat) : s.classOf r = classIn (s.room r, s.classes) := rfl

/-- Every room at the end of the load. -/
theorem State.room_closeAtStart_all {r : Nat} (h : r < 48) : (allRooms.foldl State.closeAtStart s).room r =
    { s.room r with service := if (s.classOf r).closedAtStart then .closed else (s.room r).service } := by
  obtain ⟨u, hu, hfold⟩ := foldl_local_mem (fun t r => (t.room r, t.classes)) State.closeAtStart
    (fun t i j hj => by rw [State.room_closeAtStart_other hj, State.closeAtStart_frame]) List.nodup_range s
    (List.mem_range.2 h)
  have hclass : u.classOf r = s.classOf r := by rw [State.classOf_eq, hu, ← State.classOf_eq]
  have hroom : u.room r = s.room r := congrArg Prod.fst hu
  rw [← hroom, ← hclass, ← State.room_closeAtStart h]
  exact congrArg Prod.fst hfold

theorem State.closeAtStart_all_frame (l : List Nat) : l.foldl State.closeAtStart s =
    { s with rooms := (l.foldl State.closeAtStart s).rooms, drops := (l.foldl State.closeAtStart s).drops } :=
  foldl_frame (fun t u => u = { t with rooms := u.rooms, drops := u.drops }) (fun _ => rfl)
    (fun h k => by rw [k, h]) (fun _ room => State.closeAtStart_frame room) l s

theorem State.powerAtStart_all_frame (l : List Nat) :
    l.foldl State.powerAtStart s = { s with lines := (l.foldl State.powerAtStart s).lines } :=
  foldl_frame (fun t u => u = { t with lines := u.lines }) (fun _ => rfl) (fun h k => by rw [k, h])
    (fun _ line => State.powerAtStart_frame line) l s

/-- A cause raised on a clear latch is its only cause. -/
theorem State.latch_raise_clear {i : Nat} (h : i < 121) (hs : (s.latch i).isSet = false) (c : Cause) :
    ((s.raise i c).latch i).isSet = true ∧ ((s.raise i c).latch i).causes = c.bit := by
  have hi : ¬ floorLatch < i := by unfold floorLatch; omega
  rw [State.raise, if_neg hi, if_neg (by rw [hs]; exact Bool.false_ne_true)]
  rcases State.placeEvent_cases (s := s.modLatch i _) i with ⟨_, e⟩ | ⟨_, e⟩ <;> rw [e]
  · rw [State.composeEvent_latch, State.latch_modLatch_same h]; exact ⟨rfl, rfl⟩
  · show (State.latch (State.modLatch _ i _) i).isSet = true ∧ (State.latch (State.modLatch _ i _) i).causes = _
    rw [State.latch_modLatch_same h, State.latch_modLatch_same h]; exact ⟨rfl, rfl⟩

/-- The load state that a load ends in (R201 step 1). -/
def State.loadResult (s : State) (blank : Option BlankReason) : LoadState :=
  if blank.isSome then .blank else if s.boot.skipped = 0 then .done else .partly

theorem State.loadResult_bit (s : State) (blank : Option BlankReason) : (s.loadResult blank).cause.bit =
    if blank.isSome then 2 else if s.boot.skipped = 0 then 1 else 4 := by
  unfold State.loadResult
  split
  · rfl
  · split <;> rfl

/-- The steps of R201 in turn: the boot status, the rooms, the lines, the offline timer and the floor event. -/
theorem State.endLoad_steps (s : State) (blank : Option BlankReason) : ∃ t0 t1 t2 t3 : State,
    t0 = s.modBoot (fun b => { b with load := s.loadResult blank, blank := blank, phase := .idle }) ∧
    t1 = allRooms.foldl State.closeAtStart t0 ∧ t2 = (List.range 4).foldl State.powerAtStart t1 ∧
    t3 = t2.modRiser (fun r => { r with offlineTimer := some t2.floor.offlineTimeout, offlineCuts := 0 }) ∧
    s.endLoad blank = t3.raise floorLatch (s.loadResult blank).cause :=
  ⟨_, _, _, _, rfl, rfl, rfl, rfl, by unfold State.endLoad State.loadResult; rfl⟩

/-- Settles O7: the steps of the end of the load, each leaving what the others change. -/
theorem endOfBootLoad : Obligations.EndOfBootLoad := by
  intro s blank
  obtain ⟨t0, t1, t2, t3, h0, h1, h2, h3, hend⟩ := s.endLoad_steps blank
  have f1 : t1 = { t0 with rooms := t1.rooms, drops := t1.drops } := h1 ▸ State.closeAtStart_all_frame allRooms
  have f2 : t2 = { t1 with lines := t2.lines } := h2 ▸ State.powerAtStart_all_frame (List.range 4)
  have hlatch : t3.latch 120 = s.latch 120 := by rw [h3, f2, f1, h0]; rfl
  have hriser : t3.riser = { s.riser with offlineTimer := some s.floor.offlineTimeout, offlineCuts := 0 } := by
    rw [h3, f2, f1, h0]; rfl
  obtain ⟨htimer, hcuts, honline⟩ : (s.endLoad blank).riser.offlineTimer = t3.riser.offlineTimer ∧
      (s.endLoad blank).riser.offlineCuts = t3.riser.offlineCuts ∧
      (s.endLoad blank).riser.online = t3.riser.online := by
    rw [hend]
    rcases State.raise_riser (s := t3) floorLatch (s.loadResult blank).cause with h | ⟨_, m, h⟩ <;> rw [h] <;>
      exact ⟨rfl, rfl, rfl⟩
  have hroom (r : Nat) : (s.endLoad blank).room r = t1.room r := by
    rw [hend, State.room, State.raise_rooms, h3, f2]; rfl
  have hline (l : Nat) : (s.endLoad blank).line l = t2.line l := by
    rw [hend, State.line, State.raise_lines, h3]; rfl
  refine ⟨?boot, fun r hr => ?room, fun l hl hoff => ?line, ?timer, ?cuts, ?online, ?clock, ?pool, ?orders, ?evidence,
    ?pantries, fun hclear => ?latch⟩
  case boot => rw [hend, State.raise_boot, h3, f2, f1, h0]; rfl
  case room =>
    rw [hroom, h1, State.room_closeAtStart_all hr, h0]
    exact ⟨rfl, rfl, rfl, rfl⟩
  case line =>
    obtain ⟨u, hu, hfold⟩ := foldl_local_mem State.line State.powerAtStart
      (fun t i j hj => State.line_powerAtStart_other hj) List.nodup_range t1 (List.mem_range.2 hl)
    have hu : u.line l = s.line l := by rw [hu, f1, h0]; rfl
    rw [hline, h2, hfold, ← hu]
    exact State.line_powerAtStart hl (by rw [hu]; exact hoff)
  case timer => rw [htimer, hriser]
  case cuts => rw [hcuts, hriser]
  case online => rw [honline, hriser]
  case clock => rw [hend, State.raise_clock, h3, f2, f1, h0]; rfl
  case pool => rw [hend, State.raise_pool, h3, f2, f1, h0]; rfl
  case orders => rw [hend, State.raise_orders, h3, f2, f1, h0]; rfl
  case evidence => rw [hend, State.raise_evidence, h3, f2, f1, h0]; rfl
  case pantries => rw [hend, State.raise_pantries, h3, f2, f1, h0]; rfl
  case latch =>
    have hraise := State.latch_raise_clear (by decide) (hlatch ▸ hclear) (s.loadResult blank).cause
    rw [← State.loadResult_bit, hend]
    exact hraise

end Sys2Proof.Machine
end

section
/-! PROOFS. The riser path: arrivals, the transmitters and the arbiter, the grant of a freed entry, and the offline timer
(R169, R174 to R180). -/

namespace Sys2Proof.Machine

variable {s : State}

/-! ## The offline timer (R178 to R180) -/

/-- What a cause raised leaves of the Riser Port: all but the local transmit queue. -/
theorem State.raise_riser_frame (i : Nat) (c : Cause) :
    (s.raise i c).riser = { s.riser with localQueue := (s.raise i c).riser.localQueue } := by
  rcases State.raise_riser (s := s) i c with h | ⟨_, m, h⟩ <;> rw [h]

/-- Being shown to the offline timer changes the timer and, by an ONLINE, the local transmit queue. -/
theorem State.showTimer_riser_frame (d : Dest) : (s.showTimer d).riser = { s.riser with
    localQueue := (s.showTimer d).riser.localQueue, offlineTimer := (s.showTimer d).riser.offlineTimer
    offlineCuts := (s.showTimer d).riser.offlineCuts, online := (s.showTimer d).riser.online } := by
  unfold State.showTimer
  split
  · simp only
    split
    · rfl
    · rw [State.raise_riser_frame]; rfl
  · rfl

theorem State.showTimer_receive (d : Dest) : (s.showTimer d).riser.receive = s.riser.receive := by
  rw [State.showTimer_riser_frame]

theorem State.showTimer_receiveDrops (d : Dest) : (s.showTimer d).riser.receiveDrops = s.riser.receiveDrops := by
  rw [State.showTimer_riser_frame]

theorem State.showTimer_other {d : Dest} (h : s.isOwn d = false) : s.showTimer d = s := by
  simp [State.showTimer, h]

theorem State.showTimer_online {d : Dest} (h : s.isOwn d = true) (hl : s.loading = false)
    (ho : s.riser.online = true) : s.showTimer d = { s with
      riser := { s.riser with offlineTimer := some s.floor.offlineTimeout, offlineCuts := 0 } } := by
  simp only [State.showTimer, h, hl, Bool.not_false, Bool.and_true, if_true, ho, State.modRiser]

theorem State.showTimer_offline {d : Dest} (h : s.isOwn d = true) (hl : s.loading = false)
    (ho : s.riser.online = false) : s.showTimer d =
      ({ s with riser := { s.riser with
          offlineTimer := some s.floor.offlineTimeout, offlineCuts := 0, online := true } }.markAll).raise floorLatch
        .online := by
  simp only [State.showTimer, h, hl, Bool.not_false, Bool.and_true, if_true, ho, Bool.false_eq_true, if_false]
  rfl

/-- A message that counts starts the timer anew, with no TIME message taken since. -/
theorem State.showTimer_restarts {d : Dest} (h : s.isOwn d = true) (hl : s.loading = false) :
    (s.showTimer d).riser.offlineTimer = some s.floor.offlineTimeout ∧ (s.showTimer d).riser.offlineCuts = 0 := by
  cases ho : s.riser.online
  · rw [State.showTimer_offline h hl ho, State.raise_riser_frame]; exact ⟨rfl, rfl⟩
  · rw [State.showTimer_online h hl ho]; exact ⟨rfl, rfl⟩

theorem State.showTimer_atRest (d : Dest) (h : s.atRest) : (s.showTimer d).atRest :=
  ⟨by rw [(State.showTimer_portWork d).1]; exact h.1, by rw [State.showTimer_freed]; exact h.2⟩

theorem exec_offlineTimerExpiry (h : s.atRest) : exec .offlineTimerExpiry s = .next (
    if s.riser.timerEnds then
      (({ s.takeDue .offlineTimerExpiry with
        riser := { s.riser with online := false, offlineTimer := none } }.markAll).raise floorLatch .offline)
    else s.takeDue .offlineTimerExpiry).sent := by
  show execOfflineTimerExpiry s = _
  rw [execOfflineTimerExpiry, run_next h]
  rfl

theorem Riser.timerEnds_iff {r : Riser} : r.timerEnds = true ↔
    r.online = true ∧ ∃ n, r.offlineTimer = some n ∧ n ≤ 1 + r.offlineCuts := by
  simp only [Riser.timerEnds, Bool.and_eq_true, Option.any_eq_true, decide_eq_true_eq]

theorem State.markAll_stale {c : DropCode} (h : (s.drop c).kind = .roomPanel) (hv : validDrop c = true) :
    (s.markAll.drop c).stale = true := by
  rw [State.drop_markAll, if_pos hv, Drop.marked, if_pos h]

/-- Settles O15: the expiry by whether the timer is at its end, and a message shown to the timer by the online state. -/
theorem onlineStateFollowsTimerAndMessages : Obligations.OnlineStateFollowsTimerAndMessages := by
  intro s hl
  refine ⟨fun n hrest ho ht hn => ?expires, fun hrest h => ?early, fun d hd h1 hrest => ?replaced,
    fun d hd ho => State.showTimer_online hd hl ho, fun d hd ho => State.showTimer_offline hd hl ho,
    fun d => State.showTimer_other, fun c hk hv => State.markAll_stale hk hv⟩
  case expires => rw [exec_offlineTimerExpiry hrest, if_pos (Riser.timerEnds_iff.2 ⟨ho, n, ht, hn⟩)]; rfl
  case early =>
    rw [exec_offlineTimerExpiry hrest, if_neg]
    intro he
    obtain ⟨ho, n, ht, hn⟩ := Riser.timerEnds_iff.1 he
    rcases h with h | h | ⟨m, hm, h⟩
    · rw [ho] at h; cases h
    · rw [ht] at h; cases h
    · rw [ht] at hm; cases hm; omega
  case replaced =>
    rw [exec_offlineTimerExpiry (State.showTimer_atRest d hrest), if_neg]
    intro he
    obtain ⟨_, n, ht, hn⟩ := Riser.timerEnds_iff.1 he
    obtain ⟨htimer, hcuts⟩ := State.showTimer_restarts hd hl
    rw [htimer, Option.some.injEq] at ht
    omega

/-! ## Arrivals (R169) -/

theorem exec_uplinkArrival (h : s.atRest) {type : Nat} {payload : Bytes} {t : State}
    (ht : t = s.takeDue (.uplinkArrival type payload)) :
    exec (.uplinkArrival type payload) s = .next (
      if type ≠ s.floor.riserType then t.modRiser fun r => { r with uplinkForeign := bump16 r.uplinkForeign }
      else
        match parseMessage payload with
        | none => t.modRiser fun r => { r with malformed := bump16 r.malformed }
        | some m =>
          if m.kind.upward then t.modRiser fun r => { r with malformed := bump16 r.malformed }
          else if s.riser.receive.length < 8 then
            ((t.showTimer m.dest).modRiser fun r => { r with receive := r.receive ++ [payload] }).handOnce .routeMessage
          else (t.showTimer m.dest).modRiser fun r => { r with receiveDrops := bump16 r.receiveDrops }).sent := by
  subst ht
  show execUplinkArrival type payload s = _
  rw [execUplinkArrival, run_next h]
  simp only [State.showTimer_receive, State.takeDue_riser, State.takeDue_floor] <;> rfl

/-- Settles O8: by the frame's type value, its header, its kind and the room in the receive buffer. -/
theorem uplinkArrivalIsTaken : Obligations.UplinkArrivalIsTaken := by
  intro s type payload hrest t
  have hexec := exec_uplinkArrival hrest (type := type) (payload := payload) (t := t) rfl
  refine ⟨fun hf => ?foreign, fun ht hm => ?malformed, fun m ht hm => ⟨fun hk => ?upward, fun hk hr => ?joins,
    fun hk hr => ?full⟩⟩
  case foreign => rw [hexec, if_pos hf]; rfl
  case malformed => rw [hexec, if_neg (not_not.2 ht), hm]; rfl
  case upward => rw [hexec, if_neg (not_not.2 ht), hm]; simp only [hk, if_true]; rfl
  case joins =>
    rw [hexec, if_neg (not_not.2 ht), hm]
    simp only [hk, Bool.false_eq_true, if_false, if_pos hr, State.modRiser, State.showTimer_receive]
    rfl
  case full =>
    rw [hexec, if_neg (not_not.2 ht), hm]
    simp only [hk, Bool.false_eq_true, if_false, if_neg (Nat.not_lt.2 hr), State.modRiser, State.showTimer_receiveDrops]
    rfl

/-- Settles O9: by the frame's type value, its header and the room in the onward-to-uplink queue. -/
theorem onwardArrivalIsForwarded : Obligations.OnwardArrivalIsForwarded := by
  intro s type payload hrest t
  have hexec : exec (.onwardArrival type payload) s = .next (
      if type ≠ s.floor.riserType then t.modRiser fun r => { r with onwardForeign := bump16 r.onwardForeign }
      else match parseMessage payload with
        | none => t.modRiser fun r => { r with malformed := bump16 r.malformed }
        | some _ =>
          if s.riser.upwardQueue.length < 16 then t.modRiser fun r => { r with upwardQueue := r.upwardQueue ++ [payload] }
          else t.modRiser fun r => { r with upwardDrops := bump16 r.upwardDrops }).sent := by
    show execOnwardArrival type payload s = _
    rw [execOnwardArrival, run_next hrest]
    rfl
  refine ⟨fun hf => ?foreign, fun ht hm => ?malformed, fun ht hm hr => ?joins, fun ht hm hr => ?full⟩
  case foreign => rw [hexec, if_pos hf]; rfl
  case malformed => rw [hexec, if_neg (not_not.2 ht), hm]; rfl
  case joins =>
    obtain ⟨m, hm⟩ := Option.ne_none_iff_exists'.1 hm
    rw [hexec, if_neg (not_not.2 ht), hm]
    simp only [if_pos hr]
    rfl
  case full =>
    obtain ⟨m, hm⟩ := Option.ne_none_iff_exists'.1 hm
    rw [hexec, if_neg (not_not.2 ht), hm]
    simp only [if_neg (Nat.not_lt.2 hr)]
    rfl

/-! ## The transmitters (R175 to R177) -/

/-- Settles O14: the transmitters' work is the Riser Port's own. -/
theorem transmittersTouchNothingElse : Obligations.TransmittersTouchNothingElse := fun _ =>
  State.startUplink_portWork.trans State.startOnward_portWork

/-- The uplink transmitter that is free, with its link up, takes the oldest message of the share that the arbiter names. -/
theorem State.startUplink_eq (hup : s.riser.uplinkUp = true) (hfree : s.riser.uplinkTx = none)
    (hq : s.riser.localQueue ≠ [] ∨ s.riser.upwardQueue ≠ []) {x : Bool × Nat}
    (hx : x = chooseShare s.riser.localQueue.isEmpty s.riser.upwardQueue.isEmpty s.floor.localWeight s.floor.onwardWeight
      s.riser.shareOnward s.riser.shareCount) :
    s.startUplink =
      let t := s.modRiser fun r => { r with shareOnward := x.1, shareCount := min 15 (x.2 + 1) }
      if x.1 then
        match s.riser.upwardQueue with
        | [] => t
        | raw :: rest => t.modRiser fun r => { r with upwardQueue := rest, uplinkTx := some (.forwarded raw) }
      else
        match s.riser.localQueue with
        | [] => t
        | m :: rest =>
          let t := t.modRiser fun r => { r with localQueue := rest, uplinkTx := some (.own m) }
          if s.freeEntries = 0 then
            { t with freeCount := t.freeCount + 1 }.entryFreed (Config.grantLate t.freeCount)
          else t := by
  have hgo : (s.riser.uplinkTx.isSome || !s.riser.uplinkUp ||
      (s.riser.localQueue.isEmpty && s.riser.upwardQueue.isEmpty)) = false := by
    rw [hup, hfree]
    rcases hq with h | h <;> simp [h]
  subst hx
  rw [State.startUplink]
  exact if_neg (by rw [hgo]; exact Bool.false_ne_true)

theorem List.isEmpty_eq_decide {α : Type} [DecidableEq α] (l : List α) : l.isEmpty = decide (l = []) := by
  cases l <;> rfl

/-- Settles O13: the message taken by the share chosen, and the choice by the two shares' queues and weights. -/
theorem arbiterSharesTheUplink : Obligations.ArbiterSharesTheUplink := by
  refine ⟨fun s hup hfree => ?takes, fun emptyLocal emptyOnward weightLocal weightOnward count => ?chooses⟩
  case takes =>
    intro x
    have hx : x = chooseShare s.riser.localQueue.isEmpty s.riser.upwardQueue.isEmpty s.floor.localWeight
        s.floor.onwardWeight s.riser.shareOnward s.riser.shareCount := by
      rw [List.isEmpty_eq_decide, List.isEmpty_eq_decide]
    clear_value x
    refine ⟨fun raw rest hq ho => ?onward, fun m rest hq ho => ?own⟩
    case onward =>
      rw [State.startUplink_eq hup hfree (.inr (by simp [hq])) hx]
      simp only [ho, if_true, hq]
      rfl
    case own =>
      intro t
      rw [State.startUplink_eq hup hfree (.inl (by simp [hq])) hx]
      simp only [ho, Bool.false_eq_true, if_false, hq]
      refine ⟨fun hf => ?_, fun hf => ⟨Config.grantLate s.freeCount, ?_⟩⟩
      · rw [if_neg (Nat.ne_of_gt hf)]; rfl
      · rw [if_pos hf]; rfl
  case chooses =>
    refine ⟨fun h1 h2 => ?_, fun h1 h2 => ?_, fun h1 h2 => ?_, fun h1 h2 => ?_, fun h1 h2 => ?_, fun h1 h2 => ?_,
      fun share h => ⟨fun h1 => ?_, fun h1 => ?_⟩⟩
    · simp [chooseShare, h1, Nat.not_le.2 h2]
    · simp [chooseShare, h1, Nat.not_le.2 h2]
    · rcases h2 with h2 | h2 <;> simp [chooseShare, h1, h2]
    · rcases h2 with h2 | h2 <;> simp [chooseShare, h1, h2]
    · simp [chooseShare, h1, h2]
    · simp [chooseShare, h1, h2]
    · cases emptyOnward
      · rfl
      · have hl : emptyLocal = false := by simpa using h
        cases share <;> simp [chooseShare, hl] at h1
        split at h1 <;> simp_all
    · cases emptyLocal
      · rfl
      · have ho : emptyOnward = false := by simpa using h
        cases share <;> simp [chooseShare, ho] at h1
        split at h1 <;> simp_all

end Sys2Proof.Machine
end

section
/-! PROOFS. The riser path: routing the oldest message, the grant of a freed entry, and what comes before a command
(R170 to R177, R190). -/

namespace Sys2Proof.Machine

variable {s : State}

/-! ## Routing the oldest message (R170) -/

/-- What a route makes of the state in which the message has left the buffer. -/
def State.enact (t : State) (raw : Bytes) (m : Msg) : Action → State
  | .leave => t
  | .forward => t.pushOnward raw
  | .answer code => t.reply m.kind m.tag code .none
  | .take c => t.hand c

/-- The state in which a message has left the buffer, with the reservation for its reply if it needs one. -/
def State.unbuffered (s : State) (rest : List Bytes) (m : Msg) (needs : Bool) : State :=
  { s with riser := { s.riser with
      receive := rest, replyHeld := false
      reservations := if needs then s.riser.reservations ++ [(m.kind, m.tag)] else s.riser.reservations } }

/-- A BROADCAST's copy joins the onward queue after the message has been shown to the offline timer. -/
def State.showAndCopy (t : State) (raw : Bytes) (m : Msg) (copies : Bool) : State :=
  if copies then (t.showTimer m.dest).pushOnward raw else t.showTimer m.dest

theorem State.routeHead_eq {raw : Bytes} {rest : List Bytes} {m : Msg} (hr : s.riser.receive = raw :: rest)
    (hm : parseMessage raw = some m) :
    s.routeHead = ((s.unbuffered rest m (s.routeOf m).needsReply).showAndCopy raw m (s.copies m)).enact raw m
      (s.routeOf m) := by
  have hleft : (if (s.routeOf m).needsReply = true then
        (s.modRiser fun r => { r with receive := rest, replyHeld := false }).addReservation m.kind m.tag
      else s.modRiser fun r => { r with receive := rest, replyHeld := false }) =
      s.unbuffered rest m (s.routeOf m).needsReply := by
    unfold State.unbuffered State.addReservation State.modRiser
    split <;> rfl
  rw [State.routeHead, hr]
  simp only [hm, hleft]
  cases s.routeOf m <;> rfl

theorem State.routeHead_nil (h : s.riser.receive = []) :
    s.routeHead = s.modRiser fun r => { r with replyHeld := false } := by
  rw [State.routeHead, h]

theorem State.routeHead_malformed {raw : Bytes} {rest : List Bytes} (hr : s.riser.receive = raw :: rest)
    (hm : parseMessage raw = none) :
    s.routeHead = s.modRiser fun r => { r with receive := rest, replyHeld := false } := by
  rw [State.routeHead, hr]
  simp only [hm]

theorem State.headNeedsReply_eq {raw : Bytes} {rest : List Bytes} {m : Msg} (hr : s.riser.receive = raw :: rest)
    (hm : parseMessage raw = some m) : s.headNeedsReply = (s.routeOf m).needsReply := by
  simp only [State.headNeedsReply, State.head, hr, hm]

theorem State.headNeedsReply_nil (h : s.riser.receive = []) : s.headNeedsReply = false := by
  simp only [State.headNeedsReply, State.head, h]

theorem State.headWaits_iff : s.headWaits = true ↔
    (s.headNeedsReply = true ∨ s.riser.replyHeld = true) ∧ s.freeEntries = 0 := by
  simp only [State.headWaits, Bool.and_eq_true, Bool.or_eq_true, decide_eq_true_eq]

/-- A head that waits for a grant is held. -/
theorem State.tryRoute_holds {raw : Bytes} {rest : List Bytes} (hr : s.riser.receive = raw :: rest)
    (h : s.headWaits = true) : s.tryRoute = s.modRiser fun r => { r with replyHeld := true } := by
  rw [State.tryRoute, hr]
  exact if_pos h

theorem State.tryRoute_routes {raw : Bytes} {rest : List Bytes} (hr : s.riser.receive = raw :: rest)
    (h : ¬ s.headWaits = true) : s.tryRoute = s.routeHead.afterRoute := by
  rw [State.tryRoute, hr]
  exact if_neg h

theorem State.afterRoute_nil (h : s.riser.receive = []) : s.afterRoute = s := by
  rw [State.afterRoute, h]

theorem State.afterRoute_holds {raw : Bytes} {rest : List Bytes} (hr : s.riser.receive = raw :: rest)
    (h : s.headWaits = true) : s.afterRoute = s.modRiser fun r => { r with replyHeld := true } := by
  rw [State.afterRoute, hr]
  exact if_pos h

theorem State.afterRoute_hands {raw : Bytes} {rest : List Bytes} (hr : s.riser.receive = raw :: rest)
    (h : ¬ s.headWaits = true) : s.afterRoute = s.handOnce .routeMessage := by
  rw [State.afterRoute, hr]
  exact if_neg h

theorem State.pushOnward_joins {raw : Bytes} (h : s.riser.onwardQueue.length < 16) :
    s.pushOnward raw = { s with riser := { s.riser with onwardQueue := s.riser.onwardQueue ++ [raw] } } := by
  simp only [State.pushOnward, State.modRiser, if_pos h]

theorem State.pushOnward_full {raw : Bytes} (h : 16 ≤ s.riser.onwardQueue.length) :
    s.pushOnward raw = { s with riser := { s.riser with onwardDrops := min (s.riser.onwardDrops + 1) 65535 } } := by
  simp only [State.pushOnward, State.modRiser, if_neg (Nat.not_lt.2 h)]
  rfl

/-! ## What the Riser Port's routing leaves -/

/-- The number of the next free value and the port links, which routing and the grant leave. -/
def State.links (s : State) : Nat × Bool × Bool := (s.freeCount, s.riser.uplinkUp, s.riser.onwardUp)

theorem State.raise_links (i : Nat) (c : Cause) : (s.raise i c).links = s.links := by
  simp only [State.links, State.raise_freeCount]
  rw [State.raise_riser_frame]

theorem State.showTimer_links (d : Dest) : (s.showTimer d).links = s.links := by
  unfold State.showTimer
  split
  · simp only
    split
    · rfl
    · exact State.raise_links ..
  · rfl

theorem State.pushOnward_links (raw : Bytes) : (s.pushOnward raw).links = s.links := by
  unfold State.pushOnward State.modRiser State.links
  simp only
  split <;> rfl

theorem State.pushOnward_grantEvent (raw : Bytes) : (s.pushOnward raw).riser.grantEvent = s.riser.grantEvent := by
  unfold State.pushOnward State.modRiser
  simp only
  split <;> rfl

theorem State.showAndCopy_links (raw : Bytes) (m : Msg) (copies : Bool) :
    (s.showAndCopy raw m copies).links = s.links := by
  unfold State.showAndCopy
  split
  · exact (State.pushOnward_links raw).trans (State.showTimer_links _)
  · exact State.showTimer_links _

theorem State.showAndCopy_grantEvent (raw : Bytes) (m : Msg) (copies : Bool) :
    (s.showAndCopy raw m copies).riser.grantEvent = s.riser.grantEvent := by
  have hshow : (s.showTimer m.dest).riser.grantEvent = s.riser.grantEvent := by rw [State.showTimer_riser_frame]
  unfold State.showAndCopy
  split
  · exact (State.pushOnward_grantEvent raw).trans hshow
  · exact hshow

theorem State.enact_links (raw : Bytes) (m : Msg) (a : Action) : (s.enact raw m a).links = s.links := by
  cases a with
  | forward => exact State.pushOnward_links raw
  | _ => rfl

theorem State.enact_grantEvent (raw : Bytes) (m : Msg) (a : Action) :
    (s.enact raw m a).riser.grantEvent = s.riser.grantEvent := by
  cases a with
  | forward => exact State.pushOnward_grantEvent raw
  | _ => rfl

/-- Routing the oldest message keeps the free values, the links and the grant flag. -/
theorem State.routeHead_leaves :
    s.routeHead.links = s.links ∧ s.routeHead.riser.grantEvent = s.riser.grantEvent := by
  cases hr : s.riser.receive with
  | nil => rw [State.routeHead_nil hr]; exact ⟨rfl, rfl⟩
  | cons raw rest =>
    cases hm : parseMessage raw with
    | none => rw [State.routeHead_malformed hr hm]; exact ⟨rfl, rfl⟩
    | some m =>
      rw [State.routeHead_eq hr hm]
      exact ⟨(State.enact_links ..).trans (State.showAndCopy_links ..),
        (State.enact_grantEvent ..).trans (State.showAndCopy_grantEvent ..)⟩

theorem State.afterRoute_links : s.afterRoute.links = s.links := by
  unfold State.afterRoute State.handOnce
  repeat' split
  all_goals rfl

theorem State.placeUnsent_links : s.placeUnsent.links = s.links := by
  unfold State.placeUnsent
  split <;> rfl

/-! ## The grant of a freed entry (R174) -/

section

variable (n : Nat)

theorem State.grant_succ : s.grant (n + 1) =
    if s.freeEntries = 0 then s
    else if (s.riser.replyHeld || s.headNeedsReply) && (!!s.unsent.isEmpty || !s.riser.grantEvent) then
      if s.headNeedsReply then
        ({ s.routeHead with riser := { s.routeHead.riser with grantEvent := true } }).afterRoute
      else s.routeHead.grant n
    else if !s.unsent.isEmpty then (s.placeUnsent.modRiser fun r => { r with grantEvent := false }).afterRoute
    else s.afterRoute := rfl

theorem State.grant_none (h : s.freeEntries = 0) : s.grant (n + 1) = s := if_pos h

variable (hfree : 0 < s.freeEntries)
include hfree

theorem State.grant_reply (hclaim : s.riser.replyHeld = true ∨ s.headNeedsReply = true)
    (hturn : s.unsent = [] ∨ s.riser.grantEvent = false) :
    s.grant (n + 1) = if s.headNeedsReply then
        ({ s.routeHead with riser := { s.routeHead.riser with grantEvent := true } }).afterRoute
      else s.routeHead.grant n := by
  have hgo : ((s.riser.replyHeld || s.headNeedsReply) &&
      (!!s.unsent.isEmpty || !s.riser.grantEvent)) = true := by
    simpa using And.intro hclaim hturn
  exact (s.grant_succ n).trans ((if_neg (Nat.ne_of_gt hfree)).trans (if_pos hgo))

theorem State.grant_event (hevent : s.unsent ≠ [])
    (hturn : ¬(s.riser.replyHeld = true ∨ s.headNeedsReply = true) ∨ s.riser.grantEvent = true) :
    s.grant (n + 1) = (s.placeUnsent.modRiser fun r => { r with grantEvent := false }).afterRoute := by
  have hgo : ¬((s.riser.replyHeld || s.headNeedsReply) &&
      (!!s.unsent.isEmpty || !s.riser.grantEvent)) = true := by
    simp only [Bool.and_eq_true, Bool.or_eq_true, Bool.not_eq_true', Bool.not_not, List.isEmpty_iff]
    rintro ⟨h1, h2⟩
    rcases hturn with h | h
    · exact h h1
    · exact h2.elim hevent (by simp [h])
  have hclaim : (!s.unsent.isEmpty) = true := by simpa using hevent
  exact (s.grant_succ n).trans
    ((if_neg (Nat.ne_of_gt hfree)).trans ((if_neg hgo).trans (if_pos hclaim)))

theorem State.grant_idle (hevent : s.unsent = []) (hclaim : ¬(s.riser.replyHeld = true ∨ s.headNeedsReply = true)) :
    s.grant (n + 1) = s.afterRoute := by
  have hgo : ¬((s.riser.replyHeld || s.headNeedsReply) &&
      (!!s.unsent.isEmpty || !s.riser.grantEvent)) = true := by
    simp only [Bool.and_eq_true, Bool.or_eq_true]
    exact fun h => hclaim h.1
  have hnone : ¬(!s.unsent.isEmpty) = true := by simp [hevent]
  exact (s.grant_succ n).trans
    ((if_neg (Nat.ne_of_gt hfree)).trans ((if_neg hgo).trans (if_neg hnone)))

end

theorem State.grant_links (n : Nat) : (State.grant n s).links = s.links := by
  induction n generalizing s with
  | zero => rfl
  | succ n ih =>
    rw [State.grant_succ]
    split
    · rfl
    · split
      · split
        · exact State.afterRoute_links.trans State.routeHead_leaves.1
        · exact ih.trans State.routeHead_leaves.1
      · split
        · exact State.afterRoute_links.trans State.placeUnsent_links
        · exact State.afterRoute_links

theorem State.settled_links : s.settled.links = s.links := by
  unfold State.settled
  split
  · exact State.grant_links 9
  · rfl

/-- An EVENT of a latch other than the floor latch carries no count. -/
theorem State.placeUnsent_eq {i : Nat} {rest : List Nat} (h : s.unsent = i :: rest) (hi : i < 120) :
    s.placeUnsent = { s.modLatch i fun l => { l with unsent := false } with
      unsent := rest
      riser := { s.riser with localQueue := s.riser.localQueue ++
        [.event s.floor.building s.floor.floor i (s.latch i).causes (s.latch i).raiseCount none none] } } := by
  have hfloor (p : Prop) : ¬(i = floorLatch ∧ p) := fun ⟨e, _⟩ => by rw [e] at hi; exact absurd hi (by decide)
  have hlatch : (s.modLatch i fun l => { l with unsent := false }).latch i = { s.latch i with unsent := false } :=
    State.latch_modLatch_same (by omega) _
  rw [State.placeUnsent, h]
  show (State.composeEvent _ i) = _
  have hread : ({ s.modLatch i (fun l => { l with unsent := false }) with unsent := rest } : State).latch i =
      { s.latch i with unsent := false } := hlatch
  simp only [State.composeEvent, hfloor, if_false, hread]
  rfl

theorem State.claimWaits_iff : s.claimWaits = true ↔
    s.riser.replyHeld = true ∨ s.headNeedsReply = true ∨ s.unsent ≠ [] := by
  simp only [State.claimWaits, Bool.or_eq_true, Bool.not_eq_true', List.isEmpty_eq_false_iff, or_assoc]

theorem State.entryFreed_now : s.entryFreed false = s.grant 9 := rfl

theorem State.entryFreed_late (hclaim : s.riser.replyHeld = true ∨ s.headNeedsReply = true ∨ s.unsent ≠ [])
    (hf : s.riser.freed = false) : s.entryFreed true = { s with
      riser := { s.riser with freed := true }, due := Instr.routeMessage :: s.due.erase .routeMessage } := by
  rw [State.entryFreed, State.claimWaits_iff.2 hclaim, hf]
  rfl

theorem State.entryFreed_unclaimed
    (h : ¬(s.riser.replyHeld = true ∨ s.headNeedsReply = true ∨ s.unsent ≠ []) ∨ s.riser.freed = true) :
    s.entryFreed true = s.grant 9 := by
  rw [State.entryFreed, if_neg]
  simp only [Bool.true_and, Bool.and_eq_true, Bool.not_eq_true', State.claimWaits_iff]
  rintro ⟨h1, h2⟩
  rcases h with h | h
  · exact h h1
  · rw [h2] at h; cases h

/-! ## The ends of transmissions (R175, R190) -/

/-- No message in transmission is the reply of a RESTART that waits. -/
theorem State.restartReplySent_false (h : s.restart = none ∨ (∃ waiting, s.restart = some waiting ∧
    ∀ b f body, s.riser.uplinkTx ≠ some (.own (.reply b f waiting .restart .ok body)))) :
    s.restartReplySent = false := by
  unfold State.restartReplySent
  split
  next b f tag body w htx hw =>
    rcases h with h | ⟨waiting, hwait, hother⟩
    · rw [h] at hw; cases hw
    · rw [hwait] at hw
      cases hw
      exact decide_eq_false fun e => hother b f body (e ▸ htx)
  next => rfl

/-- Settles O12: the grant by the claims that wait, and each transmitter by its link and its queue. -/
theorem transmittersTakeOldestMessages : Obligations.TransmittersTakeOldestMessages := by
  refine ⟨fun s => ⟨fun raw rest m => State.headNeedsReply_eq, State.headNeedsReply_nil, fun n => ?grant,
    fun i rest hu hi => State.placeUnsent_eq hu hi, State.routeHead_leaves.2, ?freed⟩, fun s hrest =>
    ⟨fun h => ?sent, ?onwardSent, fun up => ?uplink, fun up => ?onward, fun h => ?held, fun h => ?heldOnward,
      fun raw rest hup hfree hq => ?takesOnward, fun m rest hup hfree hq hnone hshare hcount h15 hfe => ?takes⟩⟩
  case grant =>
    intro reply flagged
    refine ⟨State.grant_none n, fun hf hc hu => ⟨fun hn => ?_, fun hn => ?_⟩, fun hf he hc => ?_,
      fun hf he hc => State.grant_idle n hf he hc⟩
    · rw [State.grant_reply n hf hc hu, if_pos hn]
    · rw [State.grant_reply n hf hc hu, if_neg (by rw [hn]; exact Bool.false_ne_true)]
    · rw [State.grant_event n hf he hc]; rfl
  case freed =>
    intro claim
    exact ⟨State.entryFreed_now, State.entryFreed_late, State.entryFreed_unclaimed⟩
  case sent =>
    show execUplinkTransmitEnd s = _
    have hother : (s.takeDue .uplinkTransmitEnd).restartReplySent = false := State.restartReplySent_false h
    rw [execUplinkTransmitEnd, run_next hrest, if_neg (by rw [hother]; exact Bool.false_ne_true)]
    rfl
  case onwardSent =>
    show execOnwardTransmitEnd s = _
    rw [execOnwardTransmitEnd, run_next hrest]
    rfl
  case uplink =>
    show execUplinkLinkChange up s = _
    rw [execUplinkLinkChange, if_neg (by rw [hrest.1]; exact Bool.false_ne_true), run_next hrest]
    rfl
  case onward =>
    show execOnwardLinkChange up s = _
    rw [execOnwardLinkChange, if_neg (by rw [hrest.1]; exact Bool.false_ne_true), run_next hrest]
    rfl
  case held => rw [State.sent, State.startUplink_idle (h.elim (fun h => .inr (.inl h)) .inl)]
  case heldOnward =>
    exact State.startOnward_idle (h.elim (fun h => .inr (.inl h)) fun h => h.elim .inl fun h => .inr (.inr h))
  case takesOnward => simp only [State.startOnward, hup, hfree, hq, State.modRiser]
  case takes =>
    have hchoose : (false, s.riser.shareCount) = chooseShare s.riser.localQueue.isEmpty s.riser.upwardQueue.isEmpty
        s.floor.localWeight s.floor.onwardWeight s.riser.shareOnward s.riser.shareCount := by
      simp [chooseShare, hq, hshare, Nat.not_le.2 hcount]
    rw [State.startUplink_eq hup hfree (.inl (by simp [hq])) hchoose]
    simp only [Bool.false_eq_true, if_false, hq, if_neg (Nat.ne_of_gt hfe), State.modRiser,
      Nat.min_eq_right (Nat.succ_le_of_lt h15)]
    rw [← hshare]

/-! ## What comes before a command (R173, R174) -/

/-- A reset makes the same of a state whose late grant has been taken. -/
theorem State.chipReset_settled : s.settled.chipReset = s.chipReset := by
  have hlinks := s.settled_links
  simp only [State.links, Prod.mk.injEq] at hlinks
  obtain ⟨hfree, hup, honward⟩ := hlinks
  have hport := (State.settled_portWork (s := s)).1
  have hcut : s.settled.cutMemory = s.cutMemory := by
    unfold State.cutMemory
    rw [hfree, show s.settled.boot = s.boot by rw [hport], show s.settled.bootMem = s.bootMem by rw [hport]]
  unfold State.chipReset
  rw [hfree, hup, honward, hcut, show s.settled.pending = s.pending by rw [hport], State.settled_resetLow]

/-- A command finds a late grant taken, unless it takes the grant itself or can bring an UPFRAME. -/
theorem exec_settled (h : s.resetLow = false) (c : Instr) (hroute : c ≠ .routeMessage)
    (hframe : ∀ line frame, c ≠ .upFrameReceived line frame) : exec c s = exec c s.settled := by
  have hlow : s.settled.resetLow = false := State.settled_resetLow.trans h
  cases c with
  | routeMessage => exact absurd rfl hroute
  | upFrameReceived line frame => exact absurd rfl (hframe line frame)
  | powerOn => simp only [exec, execPowerOn, State.chipReset_settled]
  | resetInput => simp only [exec, execResetInput, State.chipReset_settled]
  | resetInputHeldLow => simp only [exec, execResetInputHeldLow, State.chipReset_settled]
  | uplinkLinkChange up =>
    simp only [exec, execUplinkLinkChange, h, hlow, Bool.false_eq_true, if_false, run_of_settled h]
  | onwardLinkChange up =>
    simp only [exec, execOnwardLinkChange, h, hlow, Bool.false_eq_true, if_false, run_of_settled h]
  | _ =>
    simp only [exec, execBootHeaderRead, execBootRecordRead, execBootMemoryTimeout, execUplinkArrival,
      execOnwardArrival, execUplinkTransmitEnd, execOnwardTransmitEnd, execOfflineTimerExpiry, execBook, execAlter,
      execWithdraw, execContentRoom, execContentDrop, execService, execTime, execTimeStepComplete,
      execLoadFloorRecord, execLoadRoomMap, execLoadRoomClass, execLoadRoomTable, execLoadDropTable,
      execLoadLineConfig, execLoadPantryConfig, execReadFloorRecord, execReadRoomMap, execReadRoomClass,
      execReadRoomTable, execReadPantryConfig, execReadReservation, execReadOrder, execReadEvidence, execReadDrop,
      execReadLine, execReadPantryLink, execReadRiserPort, execReadFloorClock, execReadEventLatch,
      execReadEventSummary, execReadBootStatus, execListDirty, execMarkClean, execLinePowerOn, execLinePowerOff,
      execLineBreak, execDropMode, execRoomClose, execRoomOpen, execPantryResync, execClear, execBootWrite,
      execBootPageWriteDone, execBootWriteAckTimeout, execBootReadbackDone, execRestart, execRestartTimeout,
      execClockSecond, execEvidenceTick, execTickReport, execSlotBoundary, execBookingSlotRun,
      execDispatcherSlotRun, execDayBoundary, execWithdrawNotice, execOrderOutcomeNotice, execKeyCheckIn,
      execKeyEnd, execKeyExtend, execWalkup, execSample, execEntry, execPantryStatus, execReplayTimerExpiry,
      execSettlingEnd, execBreakLowEnd, execBreakQuietEnd, execPowerFault, execWalkPhase, execDownFrameSent,
      execAnswerTimeout, execFrameEndTimeout, execAbandonedTurnEnd, execUpFrameFirstByte, run_of_settled h,
      State.settled_settled]

end Sys2Proof.Machine
end

section
/-! PROOFS. The route of a message and of the receive buffer's oldest (R170 to R174, R200, R203). -/

namespace Sys2Proof.Machine

variable {s : State}

/-! ## The route of a destination (R170, R171) -/

section

variable {b f : Nat} {m : Msg}

theorem State.placeRoute_building (hb : b ≠ s.floor.building) : s.placeRoute b f m = .answer .unroutable := if_pos hb

theorem State.placeRoute_floor (hb : b = s.floor.building) (hf : f ≠ s.floor.floor) :
    s.placeRoute b f m = if s.inWindow f then .forward else .answer .unroutable := by
  rw [State.placeRoute, if_neg (not_not_intro hb), if_pos hf]

theorem State.placeRoute_here (hb : b = s.floor.building) (hf : f = s.floor.floor) :
    s.placeRoute b f m = s.localRoute m := by
  rw [State.placeRoute, if_neg (not_not_intro hb), if_neg (not_not_intro hf)]

theorem State.inWindow_iff : s.inWindow f = true ↔ s.floor.windowLow ≤ f ∧ f ≤ s.floor.windowHigh := by
  rw [State.inWindow, Bool.and_eq_true, decide_eq_true_eq, decide_eq_true_eq]

/-- A message that a block takes by its building and floor is for this floor. -/
theorem State.placeRoute_take {c : Instr} (h : s.placeRoute b f m = .take c) :
    b = s.floor.building ∧ f = s.floor.floor := by
  by_cases hb : b = s.floor.building
  · by_cases hf : f = s.floor.floor
    · exact ⟨hb, hf⟩
    · rw [State.placeRoute_floor hb hf] at h
      split at h <;> cases h
  · rw [State.placeRoute_building hb] at h
    cases h

theorem State.blockRoute_ne_forward (t : Target) : s.blockRoute t m ≠ .forward := by
  unfold State.blockRoute
  split
  · nofun
  · split <;> nofun

theorem State.localRoute_ne_forward : s.localRoute m ≠ .forward := by
  unfold State.localRoute
  split
  · split
    · nofun
    · exact State.blockRoute_ne_forward _
  · exact State.blockRoute_ne_forward _
  · split
    · exact State.blockRoute_ne_forward _
    · nofun
  · split
    · nofun
    · exact State.blockRoute_ne_forward _

/-- A message forwarded by its building and floor is another floor's. -/
theorem State.placeRoute_forward (h : s.placeRoute b f m = .forward) : f ≠ s.floor.floor := by
  intro hf
  by_cases hb : b = s.floor.building
  · rw [State.placeRoute_here hb hf] at h
    exact State.localRoute_ne_forward h
  · rw [State.placeRoute_building hb] at h
    cases h

end

theorem State.isOwn_floor {b f : Nat} : s.isOwn (.floor b f) = true ↔ b = s.floor.building ∧ f = s.floor.floor := by
  simp only [State.isOwn, Bool.and_eq_true, decide_eq_true_eq]

/-! ## The oldest message (R170, R172) -/

theorem exec_routeMessage (h : s.atRest) :
    exec .routeMessage s = .next (s.takeDue .routeMessage).tryRoute.sent := by
  show execRouteMessage s = _
  rw [execRouteMessage, h.2, commandEnd, h.1]
  rfl

section

variable {raw : Bytes} {rest : List Bytes} {m : Msg} (hr : s.riser.receive = raw :: rest)
  (hm : parseMessage raw = some m)
include hr hm

theorem State.headWaits_of (hneeds : (s.routeOf m).needsReply = true ∨ s.riser.replyHeld = true)
    (hfull : s.freeEntries = 0) : s.headWaits = true :=
  State.headWaits_iff.2 ⟨by rwa [State.headNeedsReply_eq hr hm], hfull⟩

theorem State.not_headWaits_of
    (h : ((s.routeOf m).needsReply = false ∧ s.riser.replyHeld = false) ∨ 0 < s.freeEntries) : ¬s.headWaits = true := by
  rw [State.headWaits_iff, State.headNeedsReply_eq hr hm]
  rintro ⟨hwants, hfull⟩
  rcases h with ⟨hneeds, hheld⟩ | hfree
  · simp [hneeds, hheld] at hwants
  · omega

/-- The oldest message with no free entry for its reply, or for its claim, is held. -/
theorem exec_routeMessage_holds (hrest : s.atRest)
    (hneeds : (s.routeOf m).needsReply = true ∨ s.riser.replyHeld = true) (hfull : s.freeEntries = 0) :
    exec .routeMessage s =
      .next { s.takeDue .routeMessage with riser := { s.riser with replyHeld := true } }.sent := by
  have hwaits : (s.takeDue .routeMessage).headWaits = true :=
    State.headWaits_of (s := s.takeDue .routeMessage) hr hm hneeds hfull
  rw [exec_routeMessage hrest, State.tryRoute_holds (s := s.takeDue .routeMessage) hr hwaits]
  rfl

/-- The oldest message that need not wait is routed. -/
theorem exec_routeMessage_routes (hrest : s.atRest)
    (h : ((s.routeOf m).needsReply = false ∧ s.riser.replyHeld = false) ∨ 0 < s.freeEntries) :
    exec .routeMessage s = .next
      (((((s.takeDue .routeMessage).unbuffered rest m (s.routeOf m).needsReply).showAndCopy raw m
        (s.copies m)).enact raw m (s.routeOf m)).afterRoute).sent := by
  have hgo : ¬(s.takeDue .routeMessage).headWaits = true :=
    State.not_headWaits_of (s := s.takeDue .routeMessage) hr hm h
  rw [exec_routeMessage hrest, State.tryRoute_routes (s := s.takeDue .routeMessage) hr hgo,
    State.routeHead_eq (s := s.takeDue .routeMessage) hr hm]
  rfl

end

theorem State.copies_iff {m : Msg} :
    s.copies m = true ↔ m.dest = .broadcast ∧ s.floor.windowLow ≤ s.floor.windowHigh := by
  simp only [State.copies, Bool.and_eq_true, decide_eq_true_eq]

theorem State.copies_floor {m : Msg} {b f : Nat} (h : m.dest = .floor b f) : s.copies m = false := by
  simp [State.copies, h]

/-- Settles O11: by the head's wait, its route, and the reading of the timer and the copy. -/
theorem routeMessageTakesOrHoldsOldest : Obligations.RouteMessageTakesOrHoldsOldest := by
  refine ⟨fun s hlow hfreed => ⟨if_pos hfreed, ⟨State.settled_resetLow.trans hlow, State.settled_freed⟩, ?late,
    exec_settled hlow⟩, fun s h => if_neg (by rw [h]; exact Bool.false_ne_true), ?oldest, ?parts, ?cases⟩
  case late =>
    show execRouteMessage s = _
    rw [execRouteMessage, hfreed, commandEnd, hlow]
    rfl
  case oldest =>
    intro s raw rest m hrest hr hm t needs
    refine ⟨exec_routeMessage_holds hr hm hrest, fun hgo => ?_⟩
    intro left copied routed
    rw [exec_routeMessage_routes hr hm hrest hgo]
    have hcopied : (t.unbuffered rest m needs).showAndCopy raw m (s.copies m) = copied := by
      unfold State.showAndCopy
      simp only [State.copies_iff]
      rfl
    have hrouted : ((t.unbuffered rest m needs).showAndCopy raw m (s.copies m)).enact raw m (s.routeOf m) = routed := by
      rw [hcopied]
      show copied.enact raw m (s.routeOf m) = match s.routeOf m with
        | .leave => copied
        | .forward => copied.pushOnward raw
        | .answer code => copied.reply m.kind m.tag code .none
        | .take c => { copied with due := copied.due ++ [c] }
      cases s.routeOf m <;> rfl
    rw [hrouted]
  case parts =>
    intro s raw
    refine ⟨State.pushOnward_joins, State.pushOnward_full, State.afterRoute_nil, fun next rest m hr hm =>
      ⟨fun hneeds hfull => State.afterRoute_holds hr (State.headWaits_of hr hm hneeds hfull), fun hgo => ?_⟩⟩
    rw [State.afterRoute_hands hr (State.not_headWaits_of hr hm hgo)]
    rfl
  case cases =>
    intro s raw rest m hrest hload hr hm t
    refine ⟨fun hneeds => exec_routeMessage_holds hr hm hrest (.inl hneeds), fun c b f hfree hd hon hc hnil => ?taken,
      fun b f hd hgo hfwd hnil hroom => ?forwarded, fun b f hd hgo hfwd hnil hroom => ?counted⟩
    case taken =>
      subst hnil
      have hplace : s.routeOf m = s.placeRoute b f m := by rw [State.routeOf, hd]
      have hown : s.isOwn m.dest = true := by
        rw [hd, State.isOwn_floor]
        exact State.placeRoute_take (hplace.symm.trans hc)
      rw [exec_routeMessage_routes hr hm hrest (.inr hfree), hc, State.showAndCopy, State.copies_floor hd,
        if_neg Bool.false_ne_true, State.showTimer_online (s := (s.takeDue .routeMessage).unbuffered [] m _) hown hload
          hon, State.afterRoute_nil rfl]
      rfl
    all_goals
      subst hnil
      have hplace : s.routeOf m = s.placeRoute b f m := by rw [State.routeOf, hd]
      have hown : s.isOwn m.dest = false := by
        rw [hd, Bool.eq_false_iff, Ne, State.isOwn_floor]
        exact fun h => State.placeRoute_forward (hplace.symm.trans hfwd) h.2
      have hgo' : ((s.routeOf m).needsReply = false ∧ s.riser.replyHeld = false) ∨ 0 < s.freeEntries := by
        rw [hfwd]
        exact hgo.imp_left fun h => ⟨rfl, h⟩
      rw [exec_routeMessage_routes hr hm hrest hgo', hfwd, State.showAndCopy, State.copies_floor hd,
        if_neg Bool.false_ne_true, State.showTimer_other (s := (s.takeDue .routeMessage).unbuffered [] m _) hown]
    case forwarded =>
      rw [State.enact, State.pushOnward_joins (s := (s.takeDue .routeMessage).unbuffered [] m _) hroom,
        State.afterRoute_nil rfl]
      rfl
    case counted =>
      rw [State.enact, State.pushOnward_full (s := (s.takeDue .routeMessage).unbuffered [] m _) hroom,
        State.afterRoute_nil rfl]
      rfl

/-! ## The block of a message (R171, R200) -/

theorem State.mapped_none {c : RoomCode} (h : ∀ i : Nat, s.roomMap[i]? ≠ some (some c)) : s.mapped c = none := by
  simp [State.mapped, h]

/-- A room code is mapped to the lowest entry that holds it. -/
theorem State.mapped_some {c : RoomCode} {i : Nat} (h : s.roomMap[i]? = some (some c))
    (hleast : ∀ j : Nat, s.roomMap[j]? = some (some c) → i ≤ j) : s.mapped c = some i := by
  have hi : i < 48 := (Vector.getElem?_eq_some_iff.1 h).1
  refine List.find?_range_eq_some.2 ⟨decide_eq_true h, List.mem_range.2 hi, fun j hj => ?_⟩
  simp only [Bool.not_eq_true', decide_eq_false_iff_not]
  exact fun e => absurd (hleast j e) (Nat.not_le.2 hj)

section

variable {t : Target} {m : Msg}

theorem State.blockRoute_refuses (h : blockTakes t m.kind = false) : s.blockRoute t m = .answer .badMessage := by
  rw [State.blockRoute, h]
  rfl

theorem State.blockRoute_notReady (h : blockTakes t m.kind = true) (hl : s.loading = true) :
    s.blockRoute t m = .answer .notReady := by
  rw [State.blockRoute, h, hl]
  rfl

theorem State.blockRoute_takes (h : blockTakes t m.kind = true) (hl : s.loading = false) :
    s.blockRoute t m = .take ((commandOf t m.kind m.tag m.body).getD (outOfForm t m.kind m.tag)) := by
  rw [State.blockRoute, h, hl]
  rfl

theorem State.blockRoute_command {c : Instr} (h : blockTakes t m.kind = true) (hl : s.loading = false)
    (hc : commandOf t m.kind m.tag m.body = some c) : s.blockRoute t m = .take c := by
  rw [State.blockRoute_takes h hl, hc]
  rfl

end

theorem blockTakes_floor {k : MsgKind} :
    blockTakes .floor k = true ↔ k.upward = false ∧ k ≠ .book ∧ k ≠ .content ∧ k ≠ .service := by
  simp only [blockTakes, Bool.and_eq_true, Bool.not_eq_true', decide_eq_false_iff_not, and_assoc, Ne]

theorem blockTakes_room {k : MsgKind} {r : Nat} :
    blockTakes (.room r) k = true ↔ k = .book ∨ k = .alter ∨ k = .withdraw ∨ k = .content := by
  simp only [blockTakes, Bool.or_eq_true, decide_eq_true_eq, or_assoc]

theorem blockTakes_drop {k : MsgKind} {c : DropCode} :
    blockTakes (.drop c) k = true ↔ k = .content ∨ k = .service := by
  simp only [blockTakes, Bool.or_eq_true, decide_eq_true_eq]

/-! ## The route of each form on this floor -/

section

variable {m : Msg}

theorem State.routeOf_place {b f : Nat} (h : m.dest = .floor b f ∨
      (∃ c, m.dest = .room c ∧ c.building = b ∧ c.floor = f) ∨ ∃ c, m.dest = .drop b f c) :
    s.routeOf m = s.placeRoute b f m := by
  unfold State.routeOf
  rcases h with h | ⟨c, h, rfl, rfl⟩ | ⟨c, h⟩
  all_goals rw [h]

theorem State.routeOf_floor (h : m.dest = .floor s.floor.building s.floor.floor) :
    s.routeOf m = s.blockRoute .floor m := by
  rw [State.routeOf_place (.inl h), State.placeRoute_here rfl rfl, State.localRoute, h]

theorem State.routeOf_room {c : RoomCode} (h : m.dest = .room c) (hb : c.building = s.floor.building)
    (hf : c.floor = s.floor.floor) :
    s.routeOf m = match s.mapped c with
      | some i => s.blockRoute (.room i) m
      | none => .answer .unknownRoom := by
  rw [State.routeOf_place (.inr (.inl ⟨c, h, hb, hf⟩)), State.placeRoute_here rfl rfl, State.localRoute, h] <;> rfl

theorem State.routeOf_unmapped {c : RoomCode} (h : m.dest = .room c) (hb : c.building = s.floor.building)
    (hf : c.floor = s.floor.floor) (hmap : ∀ i : Nat, s.roomMap[i]? ≠ some (some c)) :
    s.routeOf m = .answer .unknownRoom := by
  rw [State.routeOf_room h hb hf, State.mapped_none hmap]

theorem State.routeOf_drop {c : DropCode} (h : m.dest = .drop s.floor.building s.floor.floor c) :
    s.routeOf m = if !validDrop c || (s.drop c).kind = .unused then .answer .badMessage
      else s.blockRoute (.drop c) m := by
  rw [State.routeOf_place (.inr (.inr ⟨c, h⟩)), State.placeRoute_here rfl rfl, State.localRoute, h]

theorem State.routeOf_noDrop {c : DropCode} (h : m.dest = .drop s.floor.building s.floor.floor c)
    (hno : validDrop c = false ∨ (s.drop c).kind = .unused) : s.routeOf m = .answer .badMessage := by
  rw [State.routeOf_drop h, if_pos]
  simpa using hno

theorem State.routeOf_dropBlock {c : DropCode} (h : m.dest = .drop s.floor.building s.floor.floor c)
    (hv : validDrop c = true) (hk : (s.drop c).kind ≠ .unused) : s.routeOf m = s.blockRoute (.drop c) m := by
  rw [State.routeOf_drop h, if_neg]
  simp [hv, hk]

end

/-! ## A body out of form is answered BAD_MESSAGE (R203) -/

/-- The Management Engine answers a request of the wrong form BAD_MESSAGE, in its turn. -/
theorem exec_badForm {c : Instr} {k : MsgKind} {tag : Tag} (hc : managed c = some (k, tag, false))
    (h : s.accepts k tag) (ht : s.inTurn c) : exec c s = .next (s.replies c k tag .badMessage .none) := by
  obtain ⟨act, hact⟩ := exec_of_managed hc s
  rw [hact, State.settled_of_atRest h.1, manage_badMessage h ht act rfl]

theorem managed_outOfForm {k : MsgKind} (tag : Tag) (hk : k.upward = false)
    (h : k ≠ .book ∧ k ≠ .content ∧ k ≠ .service ∧ k ≠ .restart ∧ k ≠ .time) :
    managed (outOfForm .floor k tag) = some (k, tag, false) := by
  obtain ⟨hbook, hcontent, hservice, hrestart, htime⟩ := h
  cases k with
  | book => exact absurd rfl hbook
  | content => exact absurd rfl hcontent
  | service => exact absurd rfl hservice
  | restart => exact absurd rfl hrestart
  | time => exact absurd rfl htime
  | reply | event | upframe => cases hk
  | bootWrite => simp [outOfForm, managed]
  | _ => rfl

section

variable {tag : Tag}

theorem exec_outOfForm_floor {k : MsgKind} (h : s.accepts k tag) (hk : k.upward = false)
    (hb : k ≠ .book) (hc : k ≠ .content) (hv : k ≠ .service) (hr : k ≠ .restart)
    (ht : k = .time ∨ s.inTurn (outOfForm .floor k tag)) :
    exec (outOfForm .floor k tag) s = .next (s.replies (outOfForm .floor k tag) k tag .badMessage .none) := by
  by_cases htime : k = .time
  · subst htime
    show execTime tag 0 1440 0 s = _
    rw [execTime, serve_accepts h]
    rfl
  · exact exec_badForm (managed_outOfForm tag hk ⟨hb, hc, hv, hr, htime⟩) h (ht.resolve_left htime)

theorem exec_outOfForm_room {k : MsgKind} (h : s.accepts k tag) (hcatch : s.catchUp = false) {r : Nat} (hr : r < 48)
    (hk : k = .book ∨ k = .alter ∨ k = .withdraw ∨ k = .content) :
    exec (outOfForm (.room r) k tag) s = .next (s.replies (outOfForm (.room r) k tag) k tag .badMessage .none) := by
  have hrest := State.settled_of_atRest h.1
  rcases hk with rfl | rfl | rfl | rfl
  · show execBook tag r _ s = _
    rw [execBook, serve_accepts h, if_neg (Nat.not_le.2 hr), afterCatchUp_idle ((catchUp_taken rfl).trans hcatch)]
    rfl
  · show execAlter tag (some r) _ s = _
    simp only [execAlter]
    rw [serve_accepts h, afterCatchUp_idle ((catchUp_taken rfl).trans hcatch)]
    rfl
  · show execWithdraw tag (some r) _ s = _
    simp only [execWithdraw]
    rw [serve_accepts h, afterCatchUp_idle ((catchUp_taken rfl).trans hcatch)]
    rfl
  · show execContentRoom tag r 0 _ s = _
    rw [execContentRoom, serve_accepts h, if_neg (Nat.not_le.2 hr), if_pos (by rw [List.length_replicate]; decide)]
    rfl

theorem exec_outOfForm_drop {k : MsgKind} (h : s.accepts k tag) {c : DropCode} (hk : k = .content ∨ k = .service) :
    exec (outOfForm (.drop c) k tag) s = .next (s.replies (outOfForm (.drop c) k tag) k tag .badMessage .none) := by
  rcases hk with rfl | rfl
  · show execContentDrop tag c 0 _ s = _
    rw [execContentDrop, serve_accepts h, if_pos (by rw [List.length_replicate, Bool.or_eq_true]; exact .inr rfl)]
    rfl
  · show execService tag c _ s = _
    rw [execService, serve_accepts h, if_pos (by rw [List.length_replicate, Bool.or_eq_true]; exact .inr rfl)]
    rfl

end

/-- Settles O10: by the destination's building and floor, its block, and the body's form. -/
theorem routeFollowsDestination : Obligations.RouteFollowsDestination := by
  refine ⟨fun s m => ?route, ?bad, fun s m hl => ?ready⟩
  case route =>
    intro here
    refine ⟨fun b f hd => ?place, fun hd hl => ?leave, fun c => State.routeOf_unmapped, fun c => State.routeOf_noDrop,
      fun t ht => ?block⟩
    case place =>
      rw [State.routeOf_place hd]
      refine ⟨State.placeRoute_building, fun hb hf h1 h2 => ?_, fun hb hf hout => ?_⟩
      · rw [State.placeRoute_floor hb hf, if_pos (State.inWindow_iff.2 ⟨h1, h2⟩)]
      · rw [State.placeRoute_floor hb hf, if_neg (by rw [State.inWindow_iff]; omega)]
    case leave => rw [State.routeOf, hd]; simp only [State.localRoute, hd, hl, if_true]
    case block =>
      have hroute : s.routeOf m = s.blockRoute t m := by
        rcases ht with ⟨rfl, hd⟩ | ⟨c, i, rfl, hd, hb, hf, hi, hleast⟩ | ⟨c, rfl, hd, hv, hk⟩
        · exact State.routeOf_floor hd
        · rw [State.routeOf_room hd hb hf, State.mapped_some hi hleast]
        · exact State.routeOf_dropBlock hd hv hk
      intro takes
      have htakes : blockTakes t m.kind = true ↔ takes := by
        cases t with
        | floor => exact blockTakes_floor
        | room i => exact blockTakes_room
        | drop c => exact blockTakes_drop
      rw [hroute]
      refine ⟨fun h => State.blockRoute_refuses (Bool.eq_false_iff.2 fun e => h (htakes.1 e)),
        fun h => State.blockRoute_notReady (htakes.2 h),
        fun h hl => ⟨fun c => State.blockRoute_command (htakes.2 h) hl, fun hc => ?_⟩⟩
      rw [State.blockRoute_takes (htakes.2 h) hl, hc]
      rfl
  case bad =>
    intro s t k tag h hcatch c hform
    cases t with
    | floor =>
      obtain ⟨hk, hb, hc, hv, hr, ht⟩ := hform
      exact exec_outOfForm_floor h hk hb hc hv hr ht
    | room r => exact exec_outOfForm_room h hcatch hform.1 hform.2
    | drop d => exact exec_outOfForm_drop h hform.2
  case ready =>
    refine ⟨fun b f hd hb => ?_, fun f hd hf h1 h2 => ?_, fun f hd hf hout => ?_, fun hd => ?_, fun hd hk => ?_,
      fun hd hk hlen => ?_, fun c => State.routeOf_unmapped, fun c i hd hb hf hk hi huniq ref href => ?_,
      fun c => State.routeOf_noDrop, fun c hd hv hu hk hlen => ?_⟩
    · rw [State.routeOf_place (.inl hd), State.placeRoute_building hb]
    · rw [State.routeOf_place (.inl hd), State.placeRoute_floor rfl hf, if_pos (State.inWindow_iff.2 ⟨h1, h2⟩)]
    · rw [State.routeOf_place (.inl hd), State.placeRoute_floor rfl hf, if_neg (by rw [State.inWindow_iff]; omega)]
    · rw [State.routeOf_floor (m := { m with dest := _ }) rfl, State.routeOf, hd]
      simp only [State.localRoute, hd, hl, Bool.false_eq_true, if_false]
      rfl
    · rw [State.routeOf_floor hd, State.blockRoute_refuses]
      rcases hk with h | h | h <;> rw [h] <;> rfl
    · obtain ⟨d1, d0, m1, m0, sec, hbody⟩ : ∃ a b c d e, m.body = [a, b, c, d, e] := by
        match hb : m.body, hlen with
        | [a, b, c, d, e], _ => exact ⟨a, b, c, d, e, rfl⟩
      refine ⟨rd16 d1 d0, rd16 m1 m0, sec.toNat, ?_⟩
      rw [State.routeOf_floor hd, State.blockRoute_command (by rw [hk]; rfl) hl]
      rw [hk, hbody]
      rfl
    · rw [State.routeOf_room hd hb hf, State.mapped_some hi fun j hj => (huniq j hj).ge]
      refine State.blockRoute_command (by rw [hk]; rfl) hl ?_
      rw [hk, commandOf, href]
      rfl
    · rw [State.routeOf_dropBlock hd hv hu]
      refine State.blockRoute_command (by rw [hk]; rfl) hl ?_
      rw [hk, commandOf, if_pos hlen]

end Sys2Proof.Machine
end

section
/-! PROOFS. The READs and the dirty-record exchange (R34, R36, R72, R91, R120, R143, R166, R182, R185, R186, R202). -/

namespace Sys2Proof.Machine

variable {s : State} {tag : Tag}

/-! ## A managed request by its rule -/

/-- A request that the Management Engine can take is taken by its own rule. -/
theorem exec_manages {c : Instr} {k : MsgKind} {form : Bool} {act : State → State} (h : s.manages c k tag)
    (hexec : exec c s = run c s (manage k tag c s.settled form act)) (hform : form = true) :
    exec c s = .next (act (s.taken c k tag)).sent := by
  rw [hexec, State.settled_of_atRest h.1.1, manage_takes h act hform]

/-- One whose operands are out of range is answered BAD_MESSAGE. -/
theorem exec_outOfRange {c : Instr} {k : MsgKind} {form ok : Bool} {act : State → State} (h : s.manages c k tag)
    (hexec : exec c s = run c s (manage k tag c s.settled form (inRange k tag ok act))) (hok : ok = false) :
    exec c s = .next (s.replies c k tag .badMessage .none) := by
  cases form with
  | true => rw [exec_manages h hexec rfl, hok, inRange_bad, State.replies]
  | false => rw [hexec, State.settled_of_atRest h.1.1, manage_badMessage h.1 h.2.2 _ rfl]

/-- One whose operands are in range goes on to its rule. -/
theorem exec_inRange {c : Instr} {k : MsgKind} {form ok : Bool} {act : State → State} (h : s.manages c k tag)
    (hexec : exec c s = run c s (manage k tag c s.settled form (inRange k tag ok act))) (hform : form = true)
    (hok : ok = true) : exec c s = .next (act (s.taken c k tag)).sent := by
  rw [exec_manages h hexec hform, hok, inRange_good]

/-! ## A request that sees the TODAY lists (R15) -/

theorem State.dayRaised_iff : s.dayRaised = true ↔ ∃ day, Instr.dayBoundary day ∈ s.due := by
  rw [State.dayRaised, List.any_eq_true]
  constructor
  · rintro ⟨c, hc, hday⟩
    cases c with
    | dayBoundary day => exact ⟨day, hc⟩
    | _ => cases hday
  · exact fun ⟨day, h⟩ => ⟨_, h, rfl⟩

/-- Whether some work of a sort is due does not turn on work of another sort. -/
theorem any_erase {p : Instr → Bool} {c : Instr} (h : p c = false) (l : List Instr) : (l.erase c).any p = l.any p := by
  rw [Bool.eq_iff_iff, List.any_eq_true, List.any_eq_true]
  refine exists_congr fun d => and_congr_left fun hd => List.mem_erase_of_ne fun e => ?_
  rw [e, h] at hd
  cases hd

/-- A request's being taken leaves a raised day boundary raised, and raises none. -/
theorem State.taken_dayRaised {c : Instr} {k : MsgKind} (hc : isDayBoundary c = false) :
    (s.taken c k tag).dayRaised = s.dayRaised := by
  rw [State.dayRaised, State.taken_due, any_erase hc, State.dayRaised]

theorem State.taken_clockBusy {c : Instr} {k : MsgKind} (hc : isBoundaryWork c = false) :
    (s.taken c k tag).clockBusy = s.clockBusy := by
  rw [State.clockBusy, State.taken_due, any_erase hc, State.taken_timeStep, State.clockBusy]

theorem afterDay_waits {t : State} (h : t.dayRaised = true) (c : Instr) (act : State → State) :
    afterDay c s act t = { t with due := s.holdBack c c } := if_pos h

theorem afterDay_runs {t : State} (h : t.dayRaised = false) (c : Instr) (act : State → State) :
    afterDay c s act t = act t := if_neg (by rw [h]; exact Bool.false_ne_true)

section

variable {c : Instr} {k : MsgKind} {form : Bool} {act : State → State} (h : s.manages c k tag)
  (hexec : exec c s = run c s (manage k tag c s.settled form (afterDay c s.settled act))) (hform : form = true)
  (hc : isDayBoundary c = false)
include h hexec hform hc

theorem exec_afterDay_waits (hd : s.dayRaised = true) :
    exec c s = .next { s.taken c k tag with due := s.holdBack c c }.sent := by
  rw [exec_manages h hexec hform, afterDay_waits ((State.taken_dayRaised hc).trans hd), State.settled_of_atRest h.1.1]

theorem exec_afterDay_runs (hd : s.dayRaised = false) : exec c s = .next (act (s.taken c k tag)).sent := by
  rw [exec_manages h hexec hform, afterDay_runs ((State.taken_dayRaised hc).trans hd)]

end

/-! ## READs without counters -/

/-- A READ of a record always in range gives its body. -/
theorem exec_reads {c : Instr} {body : State → Body} {form : Bool} {b : Body} (h : s.manages c .read tag)
    (hexec : exec c s = run c s (manage .read tag c s.settled form fun t => t.readOk tag (body t))) (hform : form = true)
    (hb : body (s.taken c .read tag) = b) : exec c s = .next (s.replies c .read tag .ok b) := by
  rw [exec_manages h hexec hform, hb, State.readOk, State.replies]

/-- A READ of a table in range gives its body. -/
theorem exec_readsEntry {c : Instr} {body : State → Body} {ok : Bool} {b : Body} (h : s.manages c .read tag)
    (hexec : exec c s = run c s (manage .read tag c s.settled true (inRange .read tag ok fun t => t.readOk tag (body t))))
    (hok : ok = true) (hb : body (s.taken c .read tag) = b) : exec c s = .next (s.replies c .read tag .ok b) := by
  rw [exec_inRange h hexec rfl hok, hb, State.readOk, State.replies]

/-- READ_RESERVATION's rule for a record in range. -/
def State.readReservation (tag : Tag) (index : Nat) (t : State) : State :=
  match t.res index with
  | some r => t.readOk tag (.reservation index r)
  | none => t.reply .read tag .badState .none

theorem exec_readReservation (clear : Bool) (i : Nat) : exec (.readReservation tag clear i) s =
    run (.readReservation tag clear i) s (manage .read tag (.readReservation tag clear i) s.settled true
      (afterDay (.readReservation tag clear i) s.settled
        (inRange .read tag (decide (i ≤ 767)) (State.readReservation tag i)))) := rfl

/-- READ_ORDER's rule. -/
def State.readOrder (tag : Tag) (id : OrderId) (t : State) : State :=
  match t.order id with
  | some o => t.readOk tag (.order o)
  | none => t.reply .read tag .notFound .none

theorem exec_readOrder (clear : Bool) (id : OrderId) : exec (.readOrder tag clear id) s =
    run (.readOrder tag clear id) s (manage .read tag (.readOrder tag clear id) s.settled true
      (State.readOrder tag id)) := rfl

/-- Settles O33: each READ by its rule on the state that it finds. -/
theorem readsReturnRecordsAsTheyStand : Obligations.ReadsReturnRecordsAsTheyStand := by
  intro s tag clear gives fails
  refine ⟨fun h => exec_reads h rfl rfl (by rw [State.taken_floor]), fun n code hn h => ?_,
    fun n hn h => exec_outOfRange h rfl (decide_eq_false (by omega)), fun n k hn h => ?_,
    fun n hn h => exec_outOfRange h rfl (decide_eq_false (by omega)),
    fun n hn h => exec_readsEntry h rfl (decide_eq_true (by omega)) (by simp only [State.taken_room,
      State.taken_boundPanels, State.taken_boundSensor]),
    fun n hn h => exec_outOfRange h rfl (decide_eq_false (by omega)),
    fun n hn h => exec_reads (body := fun t => .pantryConfig (t.pantry n).drop (t.pantry n).lead (t.pantry n).timeoutCode)
      h rfl (decide_eq_true (by omega)) (by simp only [State.taken_pantry]), fun n hn h => ?_,
    fun i hd h => exec_afterDay_waits h (exec_readReservation clear i) rfl rfl hd, State.dayRaised_iff,
    fun i r hd hi hr h => ?_, fun i hd hi hr h => ?_, fun i hd hi h => ?_, fun id o ho h => ?_, fun id ho h => ?_,
    fun n hn h => exec_readsEntry h rfl (decide_eq_true (by omega)) (by simp only [State.taken_ev]),
    fun n hn h => exec_outOfRange h rfl (decide_eq_false (by omega)), fun h => ?_,
    fun i hi h => ?_, fun h => ?_, fun i hi h => exec_outOfRange h rfl (decide_eq_false (by omega)),
    fun h => exec_reads h rfl rfl (by simp only [State.taken_latch, State.taken_unsent]),
    fun h => exec_reads h rfl rfl (by rw [State.taken_boot])⟩
  · have hlt := (Vector.getElem?_eq_some_iff.1 hn).1
    exact exec_readsEntry h rfl (decide_eq_true (by omega)) (by simp only [State.taken_roomMap, hn, Option.getD_some])
  · have hlt := (Vector.getElem?_eq_some_iff.1 hn).1
    exact exec_readsEntry h rfl (decide_eq_true (by omega)) (by simp only [State.taken_classes, hn, Option.getD_some])
  · exact exec_badForm (k := .read) (by rw [managed, decide_eq_false (by omega)]) h.1 h.2.2
  · rw [exec_afterDay_runs h (exec_readReservation clear i) rfl rfl hd, decide_eq_true (by omega), inRange_good,
      State.readReservation, State.taken_res, hr]
    rfl
  · rw [exec_afterDay_runs h (exec_readReservation clear i) rfl rfl hd, decide_eq_true (by omega), inRange_good,
      State.readReservation, State.taken_res, hr]
    rfl
  · rw [exec_afterDay_runs h (exec_readReservation clear i) rfl rfl hd, decide_eq_false (by omega), inRange_bad]
    rfl
  · rw [exec_manages h (exec_readOrder clear id) rfl, State.readOrder, State.taken_order, ho]
    rfl
  · rw [exec_manages h (exec_readOrder clear id) rfl, State.readOrder, State.taken_order, ho]
    rfl
  · exact exec_reads h rfl rfl (by rw [State.taken_clock, State.taken_curSlot, State.taken_clockBusy rfl]; rfl)
  · have hne : i ≠ floorLatch := by rw [floorLatch]; omega
    exact exec_readsEntry h rfl (decide_eq_true (by omega)) (by simp only [State.taken_latch, if_neg hne])
  · exact exec_readsEntry h rfl rfl (by simp only [State.taken_latch, State.taken_flushCount, State.taken_discardCount,
      floorLatch, if_true])

/-! ## READs with counters (R120, R143, R166, R182) -/

/-- READ_DROP's answer with the display shown, and the counters then cleared. -/
def State.readDrop (tag : Tag) (clear : Bool) (drop : DropCode) (d : Drop) (shown : Option Display) (t : State) : State :=
  if clear then (t.readOk tag (.drop drop d shown)).modDrop drop fun d => { d with droppedItems := 0, ignoredFrames := 0 }
  else t.readOk tag (.drop drop d shown)

theorem exec_readDrop (clear : Bool) (drop : DropCode) : exec (.readDrop tag clear drop) s =
    run (.readDrop tag clear drop) s (manage .read tag (.readDrop tag clear drop) s.settled true
      (inRange .read tag (validDrop drop) fun t =>
        if (t.drop drop).kind = .roomPanel then
          afterDay (.readDrop tag clear drop) s.settled (fun u =>
            u.readDrop tag clear drop (t.drop drop) (some (u.display (t.drop drop).room))) t
        else t.readDrop tag clear drop (t.drop drop) none)) := rfl

theorem State.taken_display {c : Instr} {k : MsgKind} (room : Option Nat) :
    (s.taken c k tag).display room = s.display room := by
  rw [State.taken_eq]; rfl

/-- Settles O34: each READ's body on the state that it finds, and its counters by the clear flag. -/
theorem readAndClearZeroesCounters : Obligations.ReadAndClearZeroesCounters := by
  intro s tag clear t
  refine ⟨?drop, fun line h => ⟨fun hl => exec_outOfRange h rfl (decide_eq_false (by omega)),
    fun hl => ?line⟩, fun pantry h => ⟨fun hp => ?noPantry, fun hp => ?pantry⟩, ?riser⟩
  case drop =>
    intro drop c h body waits
    refine ⟨fun hv => exec_outOfRange h (exec_readDrop clear drop) hv, fun hv hw => ?_, fun hv hw => ?_⟩
    all_goals
      rw [exec_inRange h (exec_readDrop clear drop) rfl hv, State.taken_drop]
    · rw [if_pos hw.1, afterDay_waits ((State.taken_dayRaised rfl).trans hw.2), State.settled_of_atRest h.1.1]
    · by_cases hk : (s.drop drop).kind = .roomPanel
      · have hd : s.dayRaised = false := Bool.eq_false_iff.2 fun hd => hw ⟨hk, hd⟩
        have hbody : body = .drop drop (s.drop drop) (some (s.display (s.drop drop).room)) :=
          congrArg _ (if_pos hk)
        rw [if_pos hk, afterDay_runs ((State.taken_dayRaised rfl).trans hd), State.taken_display, hbody]
        rfl
      · have hbody : body = .drop drop (s.drop drop) none := congrArg _ (if_neg hk)
        rw [if_neg hk, hbody]
        rfl
  case line =>
    rw [exec_inRange h (act := fun t => if clear then
      (t.readOk tag (.line (t.line line))).modLine line fun x => { x with errors := 0, timeouts := 0 }
        else t.readOk tag (.line (t.line line))) rfl rfl (decide_eq_true (by omega)), State.taken_line]
    rfl
  case noPantry => exact exec_badForm (k := .read) (by rw [managed, decide_eq_false (by omega)]) h.1 h.2.2
  case pantry =>
    rw [exec_manages h (act := fun t => if clear then
      (t.readOk tag (.pantryLink (t.pantry pantry))).modPantry pantry fun x => { x with staleAcks := 0, creditRange := 0 }
        else t.readOk tag (.pantryLink (t.pantry pantry))) rfl (decide_eq_true (by omega)), State.taken_pantry]
    rfl
  case riser =>
    intro c hc h r body
    subst hc
    have hbody : Body.riserPort (t (.readRiserPort tag clear)).floor (t (.readRiserPort tag clear)).riserReading =
        body := by
      have hclaim : (!(t (.readRiserPort tag clear)).unsent.isEmpty) = decide (s.unsent ≠ []) := by
        rw [List.isEmpty_eq_decide, State.taken_unsent, decide_not]
      have hneeds : (t (.readRiserPort tag clear)).headNeedsReply = s.headNeedsReply := by
        simp only [t, State.taken_eq]; rfl
      simp only [State.riserReading, hclaim, hneeds]
      simp only [body, r, t, State.taken_eq]
    rw [exec_manages h (act := fun t => if clear then
      (t.readOk tag (.riserPort t.floor t.riserReading)).modRiser Riser.clearCounters
        else t.readOk tag (.riserPort t.floor t.riserReading)) rfl rfl]
    exact congrArg (fun b => Host.Outcome.next (State.sent (if clear then ((t _).reply .read tag .ok b).modRiser
      Riser.clearCounters else (t _).reply .read tag .ok b))) hbody

/-! ## The dirty list (R34) -/

theorem State.mem_dirtyFrom {cursor : Nat} {e : DirtyEntry} : e ∈ s.dirtyFrom cursor ↔
    cursor ≤ e.index ∧ ∃ r, s.res e.index = some r ∧ r.dirty = true ∧
      e = { index := e.index, version := r.version, room := r.room, day := r.day, state := r.state } := by
  rw [State.dirtyFrom, List.mem_filterMap]
  constructor
  · rintro ⟨i, -, hi⟩
    split at hi
    next r hr =>
      split at hi
      next hgo => cases hi; exact ⟨hgo.1, r, hr, hgo.2, rfl⟩
      next => cases hi
    next => cases hi
  · rintro ⟨hc, r, hr, hd, he⟩
    refine ⟨e.index, List.mem_range.2 (State.res_index hr), ?_⟩
    rw [hr]
    exact (if_pos ⟨hc, hd⟩).trans (congrArg some he.symm)

/-- Every dirty record at or above the cursor has its entry. -/
theorem State.dirtyFrom_has {cursor i : Nat} (hc : cursor ≤ i) (h : ∃ r, s.res i = some r ∧ r.dirty = true) :
    ∃ e ∈ s.dirtyFrom cursor, e.index = i := by
  obtain ⟨r, hr, hd⟩ := h
  exact ⟨{ index := i, version := r.version, room := r.room, day := r.day, state := r.state },
    State.mem_dirtyFrom.2 ⟨hc, r, hr, hd, rfl⟩, rfl⟩

theorem State.dirtyFrom_ascending (cursor : Nat) :
    (s.dirtyFrom cursor).Pairwise fun a b => a.index < b.index := by
  rw [State.dirtyFrom, List.pairwise_filterMap]
  refine List.pairwise_lt_range.imp fun {i j} hij a ha b hb => ?_
  have index_of : ∀ {i : Nat} {e : DirtyEntry}, (match s.res i with
      | some r => if cursor ≤ i ∧ r.dirty then
          some { index := i, version := r.version, room := r.room, day := r.day, state := r.state } else none
      | none => none) = some e → e.index = i := by
    intro i e h
    split at h
    · split at h
      · cases h; rfl
      · cases h
    · cases h
  rw [index_of ha, index_of hb]
  exact hij

/-- What an ascending list holds beyond its first entries stands above them. -/
theorem index_lt_of_take_drop {l : List DirtyEntry} (h : l.Pairwise fun a b => a.index < b.index) {n : Nat}
    {a b : DirtyEntry} (ha : a ∈ l.take n) (hb : b ∈ l.drop n) : a.index < b.index := by
  rw [← List.take_append_drop n l, List.pairwise_append] at h
  exact h.2.2 a ha b hb

theorem index_le_last {l : List DirtyEntry} {last : DirtyEntry} (h : l.Pairwise fun a b => a.index < b.index)
    (hlast : l.getLast? = some last) {a : DirtyEntry} (ha : a ∈ l) : a.index ≤ last.index := by
  obtain ⟨init, rfl⟩ := List.getLast?_eq_some_iff.1 hlast
  rcases List.mem_append.1 ha with hinit | hend
  · exact ((List.pairwise_append.1 h).2.2 a hinit last (List.mem_singleton_self _)).le
  · rw [List.mem_singleton.1 hend]

/-- Settles O35: by the cursor's range, then the listed entries as the first sixteen of those at or above it. -/
theorem dirtyListWalksTheStore : Obligations.DirtyListWalksTheStore := by
  intro s tag cursor c h dirty
  have hexec : exec c s = run c s (manage .listDirty tag c s.settled (decide (cursor ≤ 65535)) (afterDay c s.settled
    (inRange .listDirty tag (decide (cursor ≤ 767)) fun t => t.reply .listDirty tag .ok (t.dirtyList cursor)))) := rfl
  refine ⟨fun hbad => ?bad, fun hc hd => exec_afterDay_waits h hexec (decide_eq_true hc) rfl hd, fun hc hd => ?list⟩
  case bad =>
    rcases hbad with hbig | ⟨hbig, hd⟩
    · exact exec_badForm (k := .listDirty) (by rw [managed, decide_eq_false (by omega)]) h.1 h.2.2
    · by_cases hform : cursor ≤ 65535
      · rw [exec_afterDay_runs h hexec (decide_eq_true hform) rfl hd, decide_eq_false (by omega), inRange_bad]
        rfl
      · exact exec_badForm (k := .listDirty) (by rw [managed, decide_eq_false hform]) h.1 h.2.2
  case list =>
    rw [exec_afterDay_runs h hexec (decide_eq_true (by omega)) rfl hd, decide_eq_true hc, inRange_good]
    have hall : (s.taken c .listDirty tag).dirtyFrom cursor = s.dirtyFrom cursor := by
      simp only [State.dirtyFrom, State.taken_res]
    have hsplit := List.take_append_drop 16 (s.dirtyFrom cursor)
    have hsorted := s.dirtyFrom_ascending cursor
    rw [State.dirtyList, hall]
    refine ⟨_, _, rfl, List.length_take_le .., hsorted.sublist (List.take_sublist ..), fun e he => ?_, fun n hn => ?_,
      fun hn i hci hi => ?_⟩
    · exact State.mem_dirtyFrom.1 (List.mem_of_mem_take he)
    · split at hn
      case isFalse => cases hn
      case isTrue hlong =>
        obtain ⟨last, hlast, rfl⟩ := Option.map_eq_some_iff.1 hn
        have hle {e} (he : e ∈ (s.dirtyFrom cursor).take 16) : e.index ≤ last.index :=
          index_le_last (hsorted.sublist (List.take_sublist ..)) hlast he
        have hmem : last ∈ (s.dirtyFrom cursor).take 16 := List.mem_of_getLast? hlast
        have hbeyond : (s.dirtyFrom cursor)[16] ∈ (s.dirtyFrom cursor).drop 16 :=
          List.mem_drop_iff_getElem.2 ⟨0, by omega, rfl⟩
        refine ⟨by rw [List.length_take]; omega, ⟨last, hmem, rfl⟩, fun e he => Nat.lt_succ_of_le (hle he),
          ⟨_, Nat.succ_le_of_lt (index_lt_of_take_drop hsorted hmem hbeyond), ?_⟩, fun i hci hin hi => ?_⟩
        · obtain ⟨-, r, hr, hd, -⟩ := State.mem_dirtyFrom.1 (List.getElem_mem hlong)
          exact ⟨r, hr, hd⟩
        · obtain ⟨e, he, rfl⟩ := State.dirtyFrom_has hci hi
          rw [← hsplit, List.mem_append] at he
          refine ⟨e, he.resolve_right fun hdrop => ?_, rfl⟩
          have := index_lt_of_take_drop hsorted hmem hdrop
          omega
    · have hshort : ¬16 < (s.dirtyFrom cursor).length := by
        intro hlong
        rw [if_pos hlong, Option.map_eq_none_iff, List.getLast?_eq_none_iff, List.take_eq_nil_iff] at hn
        rcases hn with hn | hn
        · omega
        · rw [hn] at hlong; cases hlong
      rw [List.take_of_length_le (by omega)]
      exact State.dirtyFrom_has hci hi

end Sys2Proof.Machine
end

section
/-! PROOFS. CONTENT and SERVICE (R162 to R164). -/

namespace Sys2Proof.Machine

variable {s : State} {tag : Tag}

/-! ## Items at the tails of the drops' queues -/

theorem State.drop_queueItem_same {c : DropCode} (h : validDrop c = true) (item : Item) :
    (s.queueItem c item).drop c = { s.drop c with fifo := (s.drop c).fifo ++ [item] } :=
  State.drop_modDrop_same h _

theorem State.drop_queueItem_other {c d : DropCode} (h : d ≠ c) (item : Item) :
    (s.queueItem c item).drop d = s.drop d := State.drop_modDrop_other h _

theorem allDrops_nodup : allDrops.Nodup := by decide

theorem State.boundPanels_nodup (room : Nat) : (s.boundPanels room).Nodup := allDrops_nodup.filter _

theorem State.valid_of_boundPanels {room : Nat} {c : DropCode} (h : c ∈ s.boundPanels room) : validDrop c = true :=
  mem_allDrops.1 (List.mem_of_mem_filter h)

section

variable {l : List DropCode} {item : Item}

/-- Copies queued for a list of drops change the Drop Table alone. -/
theorem State.queueItems_frame :
    l.foldl (fun u c => u.queueItem c item) s =
      { s with drops := (l.foldl (fun u c => u.queueItem c item) s).drops } :=
  foldl_frame (fun s t => t = { s with drops := t.drops }) (fun _ => rfl)
    (fun {s t u} hst htu => by rw [htu, hst]) (fun s c => State.modDrop_frame c _) l s

theorem State.drop_queueItems_mem (hl : l.Nodup) {c : DropCode} (hc : c ∈ l) (hv : validDrop c = true) :
    (l.foldl (fun u c => u.queueItem c item) s).drop c = { s.drop c with fifo := (s.drop c).fifo ++ [item] } := by
  obtain ⟨u, hu, hfold⟩ := foldl_local_mem (fun u c => u.drop c) (fun u c => u.queueItem c item)
    (fun _ _ _ hij => State.drop_queueItem_other hij item) hl s hc
  rw [hfold, State.drop_queueItem_same hv, hu]

theorem State.drop_queueItems_not_mem {c : DropCode} (hc : c ∉ l) :
    (l.foldl (fun u c => u.queueItem c item) s).drop c = s.drop c :=
  foldl_local_not_mem (fun u c => u.drop c) (fun u c => u.queueItem c item)
    (fun _ _ _ hij => State.drop_queueItem_other hij item) s hc

end

/-! ## CONTENT for a room -/

theorem exec_contentRoom {room : Nat} {state : Byte} {text : Bytes} (h : s.accepts .content tag) (hr : room < 48)
    (hl : text.length ≤ 239) {eligible free : List DropCode}
    (he : eligible = (s.boundPanels room).filter fun d => decide ((s.drop d).mode ≠ .isolated))
    (hf : free = eligible.filter fun d => decide ((s.drop d).fifo.length < 4)) {t : State}
    (ht : t = s.taken (.contentRoom tag room state text) .content tag) :
    exec (.contentRoom tag room state text) s = .next (State.sent (
      if eligible = [] then t.reply .content tag .notPresent .none
      else if free = [] then t.reply .content tag .queueFull .none
      else (free.foldl (fun u c => u.queueItem c (.content state text)) t).reply .content tag .ok
        (.copies free.length))) := by
  subst he hf ht
  show execContentRoom tag room state text s = _
  rw [execContentRoom, serve_accepts h, if_neg (Nat.not_le.2 hr), if_neg (Nat.not_lt.2 hl)]
  have hspace : (s.taken (.contentRoom tag room state text) .content tag).hasSpace =
      fun d => decide ((s.drop d).fifo.length < 4) := by
    funext d
    rw [State.hasSpace, State.taken_drop]
  simp only [State.taken_boundPanels, State.taken_drop, hspace]

/-- Settles O21: by the eligible panels and the free ones, with the run over the free ones. -/
theorem contentReachesTheRoomsPanels : Obligations.ContentReachesTheRoomsPanels := by
  intro s tag room state text c eligible free h hr hl
  have hexec := exec_contentRoom h hr hl (state := state) (eligible := eligible) (free := free) rfl rfl rfl
  refine ⟨fun he => ?_, fun he hf => ?_, fun hf => ⟨free.foldl (fun u c => u.queueItem c (.content state text))
    (s.taken c .content tag), ?_, fun d hd => ?_, fun d hd => ?_, State.queueItems_frame⟩⟩
  · rw [hexec, if_pos he, State.replies]
  · rw [hexec, if_neg he, if_pos hf, State.replies]
  · have he : eligible ≠ [] := fun e => hf (by simp only [free, e, List.filter_nil])
    rw [hexec, if_neg he, if_neg hf]
  · rw [State.drop_queueItems_mem (((s.boundPanels_nodup room).filter _).filter _) hd
      (State.valid_of_boundPanels (List.mem_of_mem_filter (List.mem_of_mem_filter hd))), State.taken_drop]
  · rw [State.drop_queueItems_not_mem hd, State.taken_drop]

/-! ## CONTENT and SERVICE for a drop -/

theorem exec_contentDrop {drop : DropCode} {state : Byte} {text : Bytes} (h : s.accepts .content tag)
    (hv : validDrop drop = true) (hl : text.length ≤ 239) {t : State}
    (ht : t = s.taken (.contentDrop tag drop state text) .content tag) :
    exec (.contentDrop tag drop state text) s = .next (State.sent (
      if (s.drop drop).kind ≠ .roomPanel then t.reply .content tag .badMessage .none
      else if (s.drop drop).mode = .isolated then t.reply .content tag .dropIsolated .none
      else if 4 ≤ (s.drop drop).fifo.length then t.reply .content tag .queueFull .none
      else (t.modDrop drop fun d => { d with fifo := d.fifo ++ [.content state text] }).reply .content tag .ok
        (.copies 1))) := by
  subst ht
  show execContentDrop tag drop state text s = _
  rw [execContentDrop, serve_accepts h]
  simp [hv, Nat.not_lt.2 hl, State.hasSpace, State.queueItem]

theorem exec_service {drop : DropCode} {body : Bytes} (h : s.accepts .service tag)
    (hv : validDrop drop = true) (hl : body.length ≤ 240) {t : State}
    (ht : t = s.taken (.service tag drop body) .service tag) :
    exec (.service tag drop body) s = .next (State.sent (
      if ¬((s.drop drop).kind = .roomPanel ∨ (s.drop drop).kind = .roomSensor) then
        t.reply .service tag .badMessage .none
      else if (s.drop drop).mode = .isolated then t.reply .service tag .dropIsolated .none
      else if 4 ≤ (s.drop drop).fifo.length then t.reply .service tag .queueFull .none
      else (t.modDrop drop fun d => { d with fifo := d.fifo ++ [.service body] }).reply .service tag .ok .none)) := by
  subst ht
  show execService tag drop body s = _
  rw [execService, serve_accepts h]
  simp [hv, Nat.not_lt.2 hl, State.hasSpace, State.queueItem]

/-- Settles O22: by the drop's kind, its mode and the room in its queue. -/
theorem contentAndServiceReachTheDrop : Obligations.ContentAndServiceReachTheDrop := by
  intro s tag drop hv k queued
  refine ⟨fun state text h hl => ?content, fun body h hl => ?service⟩
  case content =>
    have hexec := exec_contentDrop (state := state) h hv hl rfl
    refine ⟨fun hk => ?_, fun hk hm => ?_, fun hk hm hfull => ?_, fun hk hm hroom => ?_⟩
    · rw [hexec, if_pos hk, State.replies]
    · rw [hexec, if_neg (not_not_intro hk), if_pos hm, State.replies]
    · rw [hexec, if_neg (not_not_intro hk), if_neg hm, if_pos hfull, State.replies]
    · rw [hexec, if_neg (not_not_intro hk), if_neg hm, if_neg (Nat.not_le.2 hroom)]
  case service =>
    have hexec := exec_service h hv hl rfl
    refine ⟨fun hk => ?_, fun hk hm => ?_, fun hk hm hfull => ?_, fun hk hm hroom => ?_⟩
    · have hother : ¬((s.drop drop).kind = .roomPanel ∨ (s.drop drop).kind = .roomSensor) := by
        rw [show (s.drop drop).kind = .pantry from hk]
        nofun
      rw [hexec, if_pos hother, State.replies]
    · rw [hexec, if_neg (not_not_intro hk), if_pos hm, State.replies]
    · rw [hexec, if_neg (not_not_intro hk), if_neg hm, if_pos hfull, State.replies]
    · rw [hexec, if_neg (not_not_intro hk), if_neg hm, if_neg (Nat.not_le.2 hroom)]

end Sys2Proof.Machine
end

section
/-! PROOFS. The LOADs (R1 to R5, R88, R121, R122, R144, R145, R167, R184). -/

namespace Sys2Proof.Machine

variable {s : State} {tag : Tag}

/-! ## A LOAD by its table's checks -/

section

variable {c : Instr} {form : Bool} {table entry : Nat} {load : State → Loaded} (h : s.manages c .load tag)
include h

/-- A LOAD that its table takes. -/
theorem exec_load_taken {u : State} {clamped : Bool}
    (hexec : exec c s = run c s (manage .load tag c s.settled form fun t => t.replyLoad tag table entry (load t)))
    (hform : form = true) (hload : load (s.taken c .load tag) = .ok (u, clamped)) :
    exec c s = .next (u.reply .load tag .ok (.loaded table entry clamped)).sent := by
  rw [exec_manages h hexec hform, hload, State.replyLoad]

/-- A LOAD that its table refuses. -/
theorem exec_load_refused {code : Code}
    (hexec : exec c s = run c s (manage .load tag c s.settled form fun t => t.replyLoad tag table entry (load t)))
    (hform : form = true) (hload : load (s.taken c .load tag) = .error code) :
    exec c s = .next (s.replies c .load tag code .none) := by
  rw [exec_manages h hexec hform, hload, State.replyLoad, State.replies]

variable (hexec : exec c s = run c s (manage .load tag c s.settled true
  (afterCatchUp c c s.settled fun t => t.replyLoad tag table entry (load t)))) (hc : waitsOut c = true)
include hexec hc

theorem exec_bookingLoad_waits (hcatch : s.catchUp = true) :
    exec c s = .next { s.taken c .load tag with due := s.holdBack c c }.sent := by
  rw [exec_manages h hexec rfl, afterCatchUp_waits ((catchUp_taken hc).trans hcatch), State.settled_of_atRest h.1.1]

theorem exec_bookingLoad_taken {u : State} {clamped : Bool} (hcatch : s.catchUp = false)
    (hload : load (s.taken c .load tag) = .ok (u, clamped)) :
    exec c s = .next (u.reply .load tag .ok (.loaded table entry clamped)).sent := by
  rw [exec_manages h hexec rfl, afterCatchUp_idle ((catchUp_taken hc).trans hcatch), hload, State.replyLoad]

theorem exec_bookingLoad_refused {code : Code} (hcatch : s.catchUp = false)
    (hload : load (s.taken c .load tag) = .error code) :
    exec c s = .next (s.replies c .load tag code .none) := by
  rw [exec_manages h hexec rfl, afterCatchUp_idle ((catchUp_taken hc).trans hcatch), hload, State.replyLoad,
    State.replies]

end

/-! ## The Room Map (R1, R2) -/

/-- A room code that the Room Map refuses: of another building or floor, out of range, or held by another entry. -/
def State.codeRefused (s : State) (entry : Nat) (code : Option RoomCode) : Prop :=
  (∃ b, code = some b ∧ ¬(b.building = s.floor.building ∧ b.floor = s.floor.floor ∧ b.room ≤ 63)) ∨
    ∃ b i, code = some b ∧ i < 48 ∧ i ≠ entry ∧ s.roomMap[i]? = some (some b)

theorem State.codeRefused_none {entry : Nat} : ¬s.codeRefused entry none := by
  rintro (⟨b, hb, -⟩ | ⟨b, i, hb, -⟩) <;> cases hb

theorem State.codeRefused_some {entry : Nat} {b : RoomCode} : s.codeRefused entry (some b) ↔
    (!(b.building = s.floor.building && b.floor = s.floor.floor && decide (b.room ≤ 63))) = true ∨
      ((List.range 48).any fun i => decide (i ≠ entry) && decide (s.roomMap[i]? = some (some b))) = true := by
  simp only [State.codeRefused, Option.some.injEq, exists_eq_left', exists_and_left, List.any_eq_true, List.mem_range,
    Bool.and_eq_true, decide_eq_true_eq, Bool.not_eq_true', Bool.and_eq_false_iff, decide_eq_false_iff_not, not_and_or,
    or_assoc]

theorem State.holdsCode_iff {room : Nat} : s.holdsCode room = true ↔
    ∃ i r, i ∈ (s.room room).today ++ (s.room room).next ∧ s.res i = some r ∧ r.state.live = true := by
  simp only [State.holdsCode, List.any_eq_true]
  refine exists_congr fun i => ?_
  cases s.res i <;> simp

theorem State.loadRoomMap_badTable {entry : Nat} {code : Option RoomCode} (h : 47 < entry ∨ s.codeRefused entry code) :
    s.loadRoomMap entry code = .error .badTable := by
  refine if_pos ?_
  cases code with
  | none => exact .inl (h.resolve_right State.codeRefused_none)
  | some b => rwa [State.codeRefused_some] at h

theorem State.loadRoomMap_good {entry : Nat} {code : Option RoomCode} (he : entry ≤ 47)
    (h : ¬s.codeRefused entry code) : s.loadRoomMap entry code =
      if s.roomMap[entry]? = some code then .ok (s, false)
      else if s.holdsCode entry then .error .badState
      else .ok ({ s with roomMap := updAt s.roomMap entry fun _ => code }.markRoom entry, false) := by
  refine if_neg ?_
  cases code with
  | none => simp [Nat.not_lt.2 he]
  | some b =>
    rw [State.codeRefused_some] at h
    exact fun hbad => hbad.elim (Nat.not_lt.2 he) h

/-! ## The Room Class Table and the Room Table (R3 to R5) -/

/-- Marking the displays of a list of rooms changes the Drop Table alone. -/
theorem State.markRooms_frame {l : List Nat} :
    l.foldl State.markRoom s = { s with drops := (l.foldl State.markRoom s).drops } :=
  foldl_frame (fun s t => t = { s with drops := t.drops }) (fun _ => rfl) (fun {s t u} hst htu => by rw [htu, hst])
    (fun _ _ => rfl) l s

/-- A room panel of a room among those marked is marked. -/
theorem State.drop_markRooms {l : List Nat} {c : DropCode} {r : Nat} (hk : (s.drop c).kind = .roomPanel)
    (hr : (s.drop c).room = some r) (hmem : r ∈ l) :
    (l.foldl State.markRoom s).drop c = { s.drop c with stale := true } := by
  have hstep (t : State) (a : Nat) (ht : t.drop c = s.drop c ∨ t.drop c = { s.drop c with stale := true }) :
      (t.markRoom a).drop c = if a = r then { s.drop c with stale := true } else t.drop c := by
    rw [State.drop_markRoom]
    have hroom : (t.drop c).room = some r := by rcases ht with e | e <;> rw [e] <;> exact hr
    have hkind : (t.drop c).kind = .roomPanel := by rcases ht with e | e <;> rw [e] <;> exact hk
    have hmarked : (t.drop c).marked = { s.drop c with stale := true } := by
      rw [Drop.marked, if_pos hkind]
      rcases ht with e | e <;> rw [e]
    simp only [hroom, Option.some.injEq, hmarked, @eq_comm _ r a]
  have hrun (l : List Nat) (t : State)
      (ht : t.drop c = { s.drop c with stale := true } ∨ (t.drop c = s.drop c ∧ r ∈ l)) :
      (l.foldl State.markRoom t).drop c = { s.drop c with stale := true } := by
    induction l generalizing t with
    | nil => exact ht.resolve_right fun h => absurd h.2 List.not_mem_nil
    | cons a l ih =>
      refine ih _ ?_
      rw [hstep t a (ht.symm.imp_left And.left)]
      split
      · exact .inl rfl
      next ha => exact ht.imp_right fun h => ⟨h.1, (List.mem_cons.1 h.2).resolve_left (Ne.symm ha)⟩
  exact hrun l s (.inr ⟨rfl, hmem⟩)

theorem State.loadRoomClass_bad {entry : Nat} {f : RoomClassLoad} (h : 7 < entry ∨ roomClassOf f = none) :
    s.loadRoomClass entry f = .error .badTable := by
  rw [State.loadRoomClass]
  split
  · rfl
  next k hk => exact if_pos (h.resolve_right (by rw [hk]; nofun))

theorem State.loadRoomClass_good {entry : Nat} {f : RoomClassLoad} {k : RoomClass} (he : entry ≤ 7)
    (h : roomClassOf f = some k) : s.loadRoomClass entry f =
      .ok ((allRooms.filter fun r => (s.room r).cls = entry).foldl State.markRoom
        { s with classes := updAt s.classes entry fun _ => k }, false) := by
  rw [State.loadRoomClass, h]
  exact if_neg (Nat.not_lt.2 he)

theorem State.loadRoomTable_good {entry cls : Nat} (he : entry ≤ 47) (hc : cls ≤ 7) : s.loadRoomTable entry cls =
    if (s.room entry).cls = cls then .ok (s, false)
    else .ok ((s.modRoom entry fun e => { e with cls := cls }).markRoom entry, false) :=
  if_neg (by omega)

/-- Settles O30: each table's checks on the state that the LOAD finds. -/
theorem loadsOfRoomTables : Obligations.LoadsOfRoomTables := by
  intro s tag entry haccepts hrestart good bad
  have hmanages {c : Instr} (ht : s.inTurn c) : s.manages c .load tag := ⟨haccepts, hrestart, ht⟩
  refine ⟨fun c hc ht hcatch => ?waits, fun code hcatch => ?map, fun fields => ⟨fun h ht => ?classBad,
    fun k he hk => ?cls⟩, fun cls hcatch => ⟨fun h ht => ?tableBad, fun he hc hs ht => ?same, fun he hc hs ht => ?other⟩⟩
  case waits =>
    rcases hc with ⟨code, rfl⟩ | ⟨cls, rfl⟩
    · exact exec_bookingLoad_waits (hmanages ht) (load := fun t => t.loadRoomMap entry code) rfl rfl hcatch
    · exact exec_bookingLoad_waits (hmanages ht) (load := fun t => t.loadRoomTable entry cls) rfl rfl hcatch
  case map =>
    intro c t foreign doubled live
    have hrefused : t.codeRefused entry code ↔ foreign ∨ doubled := by
      simp only [State.codeRefused, t, State.taken_floor, State.taken_roomMap]
      rfl
    have hlive : t.holdsCode entry = true ↔ live := by
      rw [State.holdsCode_iff]
      simp only [t, State.taken_room, State.taken_res]
      rfl
    have hmap : t.roomMap = s.roomMap := State.taken_roomMap ..
    refine ⟨fun h ht => exec_bookingLoad_refused (hmanages ht) (load := fun t => t.loadRoomMap entry code) rfl rfl hcatch
      (State.loadRoomMap_badTable (h.imp_right hrefused.2)), fun he hf hd => ?_⟩
    have hload := State.loadRoomMap_good he fun h => (hrefused.1 h).elim hf hd
    rw [hmap] at hload
    refine ⟨fun hs ht => ?_, fun hs hl ht => ?_, fun hs hl ht => ?_⟩
    · exact exec_bookingLoad_taken (hmanages ht) (load := fun t => t.loadRoomMap entry code) rfl rfl hcatch
        (hload.trans (if_pos hs))
    · exact exec_bookingLoad_refused (hmanages ht) (load := fun t => t.loadRoomMap entry code) rfl rfl hcatch
        (hload.trans ((if_neg hs).trans (if_pos (hlive.2 hl))))
    · exact exec_bookingLoad_taken (hmanages ht) (load := fun t => t.loadRoomMap entry code) rfl rfl hcatch
        (hload.trans ((if_neg hs).trans (if_neg fun h => hl (hlive.1 h))))
  case classBad =>
    exact exec_load_refused (hmanages ht) (load := fun t => t.loadRoomClass entry fields) rfl rfl
      (State.loadRoomClass_bad h)
  case cls =>
    refine ⟨_, fun ht => exec_load_taken (hmanages ht) (load := fun t => t.loadRoomClass entry fields) rfl rfl
      (State.loadRoomClass_good he hk), ?_, fun d r hkind hroom hr hcls hv => ?_⟩
    · rw [State.markRooms_frame, State.taken_classes]
    · have hdrop (c : Instr) (f) : ({ s.taken c .load tag with classes := f } : State).drop d = s.drop d :=
        State.taken_drop c .load tag d
      have hmem : r ∈ allRooms.filter fun r => ((s.taken (.loadRoomClass tag entry fields) .load tag).room r).cls = entry :=
        List.mem_filter.2 ⟨List.mem_range.2 hr, by rw [State.taken_room]; exact decide_eq_true hcls⟩
      rw [State.drop_markRooms (by rw [hdrop]; exact hkind) (by rw [hdrop]; exact hroom) hmem, hdrop]
  case tableBad =>
    exact exec_bookingLoad_refused (hmanages ht) (load := fun t => t.loadRoomTable entry cls) rfl rfl hcatch (if_pos h)
  case same =>
    exact exec_bookingLoad_taken (hmanages ht) (load := fun t => t.loadRoomTable entry cls) rfl rfl hcatch
      ((State.loadRoomTable_good he hc).trans (if_pos (by rwa [State.taken_room])))
  case other =>
    exact exec_bookingLoad_taken (hmanages ht) (load := fun t => t.loadRoomTable entry cls) rfl rfl hcatch
      ((State.loadRoomTable_good he hc).trans (if_neg (by rwa [State.taken_room])))

/-! ## The floor record and the Pantry config (R88, R98, R167) -/

/-- A bound drop that a Pantry config may not name. -/
def State.boundElsewhere (s : State) (entry : Nat) (drop : Option DropCode) : Prop :=
  ∃ d, drop = some d ∧ (validDrop d = false ∨ ∃ q, q < 8 ∧ q ≠ entry ∧ (s.pantry q).drop = some d)

/-- A Pantry config entry as its LOAD replaces it. -/
def State.withPantryConfig (s : State) (entry : Nat) (f : PantryLoad) : State :=
  s.modPantry entry fun x => { x with drop := f.drop, lead := min 24 f.lead, timeoutCode := f.timeoutCode }

/-- The link after a Pantry config is replaced: it rises when the bound drop is present and NORMAL. -/
def State.riseWith (u : State) (entry : Nat) : State :=
  match u.servingDrop entry with
  | some c => if (u.drop c).present && (u.drop c).mode = .normal then u.linkRise entry else u
  | none => u

theorem State.boundElsewhere_none {entry : Nat} : ¬s.boundElsewhere entry none := fun ⟨_, h, _⟩ => by cases h

theorem State.boundElsewhere_some {entry : Nat} {d : DropCode} : s.boundElsewhere entry (some d) ↔
    (!validDrop d || (List.range 8).any fun q => decide (q ≠ entry) && decide ((s.pantry q).drop = some d)) = true := by
  simp only [State.boundElsewhere, Option.some.injEq, exists_eq_left', Bool.or_eq_true, Bool.not_eq_true',
    List.any_eq_true, List.mem_range, Bool.and_eq_true, decide_eq_true_eq]

theorem State.loadPantryConfig_bad {entry : Nat} {f : PantryLoad}
    (h : 7 < entry ∨ 3 < f.timeoutCode ∨ s.boundElsewhere entry f.drop) :
    s.loadPantryConfig entry f = .error .badTable := by
  refine if_pos ?_
  cases hd : f.drop with
  | none =>
    rw [hd] at h
    exact h.imp_right fun h => .inr (h.resolve_right State.boundElsewhere_none)
  | some d =>
    rw [hd, State.boundElsewhere_some] at h
    exact h.imp_right Or.symm

theorem State.loadPantryConfig_good {entry : Nat} {f : PantryLoad} (he : entry ≤ 7) (ht : f.timeoutCode ≤ 3)
    (hd : ¬s.boundElsewhere entry f.drop) : s.loadPantryConfig entry f =
      if (s.pantry entry).drop ≠ f.drop ∧ (s.pantry entry).link ≠ .down then .error .badState
      else .ok ((s.withPantryConfig entry f).riseWith entry, decide (24 < f.lead)) := by
  refine if_neg ?_
  cases hf : f.drop with
  | none => simp [Nat.not_lt.2 he, Nat.not_lt.2 ht]
  | some d =>
    rw [hf, State.boundElsewhere_some] at hd
    exact fun h => h.elim (Nat.not_lt.2 he) fun h => h.elim hd (Nat.not_lt.2 ht)

theorem State.riseWith_none {u : State} {entry : Nat} (h : u.servingDrop entry = none) : u.riseWith entry = u := by
  rw [State.riseWith, h]

theorem State.riseWith_some {u : State} {entry : Nat} {d : DropCode} (h : u.servingDrop entry = some d) :
    u.riseWith entry = if (u.drop d).present = true ∧ (u.drop d).mode = .normal then u.linkRise entry else u := by
  rw [State.riseWith, h]
  simp only [Bool.and_eq_true, decide_eq_true_eq]

/-- Settles O31: the floor record's check, then the pantry entry's, its bound drop and its link. -/
theorem loadsOfFloorAndPantry : Obligations.LoadsOfFloorAndPantry := by
  intro s tag entry
  refine ⟨fun rec h => ⟨fun hbad => ?floorBad, fun he hok => ?floor⟩, fun fields h => ?pantry⟩
  case floorBad =>
    exact exec_load_refused h (load := fun t => t.loadFloorRecord entry rec) rfl rfl
      (if_pos (hbad.imp_right fun h => by rw [h]; rfl))
  case floor =>
    subst he
    exact exec_load_taken h (load := fun t => t.loadFloorRecord 0 rec) rfl rfl (if_neg (by rw [hok]; decide))
  case pantry =>
    intro t badDrop u done
    have hbound : t.boundElsewhere entry fields.drop ↔ badDrop := by
      simp only [State.boundElsewhere, t, State.taken_pantry]
      rfl
    refine ⟨fun hbad => ?_, fun he hc hd hdrop hlink => ?_, fun he hc hd hkeep => ?_⟩
    · exact exec_load_refused h (load := fun t => t.loadPantryConfig entry fields) rfl rfl
        (State.loadPantryConfig_bad (hbad.imp_right (Or.imp_right hbound.2)))
    · refine exec_load_refused h (load := fun t => t.loadPantryConfig entry fields) rfl rfl
        ((State.loadPantryConfig_good he hc (hd ∘ hbound.1)).trans (if_pos ?_))
      rw [State.taken_pantry]
      exact ⟨hdrop, hlink⟩
    · have hload : t.loadPantryConfig entry fields = .ok (u.riseWith entry, decide (24 < fields.lead)) := by
        refine (State.loadPantryConfig_good he hc (hd ∘ hbound.1)).trans (if_neg ?_)
        rw [State.taken_pantry]
        exact fun hmove => hkeep.elim hmove.1 hmove.2
      have hdone : done (u.riseWith entry) :=
        exec_load_taken h (load := fun t => t.loadPantryConfig entry fields) rfl rfl hload
      have hdrop (d : DropCode) : u.drop d = s.drop d := State.taken_drop _ _ _ d
      refine ⟨fun hnone => ?_, fun d hserve hp hm => ?_, fun d hserve hno => ?_⟩
      · rwa [State.riseWith_none hnone] at hdone
      · rwa [State.riseWith_some hserve, hdrop, if_pos ⟨hp, hm⟩] at hdone
      · rwa [State.riseWith_some hserve, hdrop, if_neg (fun hyes => hno.elim (fun h => by rw [hyes.1] at h; cases h)
          fun h => h hyes.2)] at hdone

/-! ## The Drop Table (R144, R145) -/

theorem State.line_handOnce (c : Instr) (l : Nat) : (s.handOnce c).line l = s.line l := by
  unfold State.handOnce
  split <;> rfl

theorem State.line_resumeWalk {l : Nat} (h : l < 4) : ((s.resumeWalk l).line l).walk = .walking := by
  unfold State.resumeWalk
  split
  · rw [State.handWalk, State.line_handOnce, State.line_modLine_same h]
  next hw =>
    cases hwalk : (s.line l).walk with
    | walking => rfl
    | parked => exact absurd hwalk hw

/-- A walk that resumes changes the line's record and the work that is due alone. -/
theorem State.resumeWalk_frame (l : Nat) :
    s.resumeWalk l = { s with lines := (s.resumeWalk l).lines, due := (s.resumeWalk l).due } := by
  unfold State.resumeWalk State.handWalk State.handOnce
  split
  · split <;> rfl
  · rfl

theorem State.drop_resumeWalk (l : Nat) (c : DropCode) : (s.resumeWalk l).drop c = s.drop c := by
  rw [State.resumeWalk_frame]; rfl

theorem State.latch_resumeWalk (l i : Nat) : (s.resumeWalk l).latch i = s.latch i := by
  rw [State.resumeWalk_frame]; rfl

/-- A drop after a room's displays are marked: as it was, but for its stale flag. -/
theorem State.drop_markOpt (room : Option Nat) (c : DropCode) :
    (s.markOpt room).drop c = s.drop c ∨ (s.markOpt room).drop c = { s.drop c with stale := true } := by
  cases room with
  | none => exact .inl rfl
  | some r =>
    rw [State.markOpt, State.drop_markRoom, Drop.marked]
    split
    · split
      · exact .inr rfl
      · exact .inl rfl
    · exact .inl rfl

/-- A room that an entry may not name: for its kind, its range, or the drops bound to it. -/
def State.roomRefused (s : State) (c : DropCode) (k : DropKind) (room : Option Nat) : Prop :=
  ∃ r, room = some r ∧ ((k ≠ .roomPanel ∧ k ≠ .roomSensor) ∨ 47 < r ∨
    (if k = .roomPanel then 2 else 1) ≤ s.others c fun x => x.kind = k && x.room = some r)

/-- A pantry that an entry may not name, or does not. -/
def State.pantryRefused (s : State) (c : DropCode) (k : DropKind) (pantry : Option Nat) : Prop :=
  (k = .pantry ∧ pantry = none) ∨ ∃ p, pantry = some p ∧
    (k ≠ .pantry ∨ 7 < p ∨ 1 ≤ s.others c fun x => x.kind = .pantry && x.pantry = some p)

theorem State.dropTableBad_iff {c : DropCode} {k : DropKind} {f : DropLoad} :
    s.dropTableBad c k f = true ↔ s.roomRefused c k f.room ∨ s.pantryRefused c k f.pantry := by
  rw [State.dropTableBad, Bool.or_eq_true]
  refine or_congr ?_ ?_
  · cases hroom : f.room with
    | none => simp [State.roomRefused]
    | some r =>
      simp only [State.roomRefused, Option.some.injEq, exists_eq_left', Bool.or_eq_true, Bool.not_eq_true',
        Bool.or_eq_false_iff, decide_eq_false_iff_not, decide_eq_true_eq, or_assoc, Ne]
  · cases hpantry : f.pantry with
    | none => simp [State.pantryRefused]
    | some p =>
      simp only [State.pantryRefused, Option.some.injEq, exists_eq_left', Bool.or_eq_true, Bool.not_eq_true',
        decide_eq_false_iff_not, decide_eq_true_eq, or_assoc, reduceCtorEq, and_false, false_or, Ne]

/-- What a Drop Table entry that is taken makes of the state, before the walk resumes. -/
def State.withDropEntry (s : State) (c : DropCode) (k : DropKind) (f : DropLoad) : State :=
  let t := (((s.markOpt (s.drop c).room).modDrop c fun d => { d with kind := k, room := f.room, pantry := f.pantry }).markOpt
    f.room)
  if k ≠ .unused ∧ (s.drop c).reported ≠ none ∧ (s.drop c).reported ≠ some k then
    t.raise (dropLatch c) .kindMismatch else t

theorem State.loadDropTable_bad {c : DropCode} {f : DropLoad} (h : validDrop c = false ∨ dropKindOf f.kind = none) :
    s.loadDropTable c f = .error .badTable := by
  rw [State.loadDropTable]
  split
  · rfl
  next k hk =>
    rw [h.resolve_right (by rw [hk]; nofun)]
    rfl

theorem State.loadDropTable_kind {c : DropCode} {f : DropLoad} {k : DropKind} (hv : validDrop c = true)
    (hk : dropKindOf f.kind = some k) : s.loadDropTable c f =
      if s.dropTableBad c k f then .error .badTable
      else if (s.drop c).kind = k ∧ (s.drop c).room = f.room ∧ (s.drop c).pantry = f.pantry then
        .ok (s.resumeWalk c.line, false)
      else if (s.drop c).mode ≠ .isolated then .error .badState
      else .ok ((s.withDropEntry c k f).resumeWalk c.line, false) := by
  rw [State.loadDropTable, hk, hv]
  rfl

section

variable {c : DropCode} {k : DropKind} {f : DropLoad}

/-- The Drop Table of a taken entry, before the causes are raised. -/
theorem State.drop_withDropEntry (x : DropCode) : (s.withDropEntry c k f).drop x =
    (((s.markOpt (s.drop c).room).modDrop c fun d =>
      { d with kind := k, room := f.room, pantry := f.pantry }).markOpt f.room).drop x := by
  unfold State.withDropEntry
  simp only
  split
  · unfold State.drop State.dropAt
    rw [State.raise_drops]
  · rfl

theorem State.withDropEntry_other {x : DropCode} (h : x ≠ c) :
    (s.withDropEntry c k f).drop x = s.drop x ∨
      (s.withDropEntry c k f).drop x = { s.drop x with stale := true } := by
  rw [State.drop_withDropEntry]
  generalize ht : (s.markOpt (s.drop c).room).modDrop c (fun d =>
    { d with kind := k, room := f.room, pantry := f.pantry }) = t
  have hfirst : t.drop x = s.drop x ∨ t.drop x = { s.drop x with stale := true } := by
    rw [← ht, State.drop_modDrop_other h]
    exact State.drop_markOpt ..
  rcases State.drop_markOpt (s := t) f.room x with e | e <;> rw [e]
  · exact hfirst
  · rcases hfirst with e | e <;> rw [e] <;> exact .inr rfl

/-- The entry itself: replaced whole, with what the part knows of the drop kept. -/
theorem State.withDropEntry_same (hv : validDrop c = true) :
    ∃ stale, (s.withDropEntry c k f).drop c =
      { s.drop c with kind := k, room := f.room, pantry := f.pantry, stale := stale } := by
  rw [State.drop_withDropEntry]
  generalize ht : (s.markOpt (s.drop c).room).modDrop c (fun d =>
    { d with kind := k, room := f.room, pantry := f.pantry }) = t
  have hfirst : ∃ stale, t.drop c = { s.drop c with kind := k, room := f.room, pantry := f.pantry, stale := stale } := by
    rw [← ht, State.drop_modDrop_same hv]
    rcases State.drop_markOpt (s := s) (s.drop c).room c with e | e <;> rw [e] <;> exact ⟨_, rfl⟩
  obtain ⟨stale, hfirst⟩ := hfirst
  rcases State.drop_markOpt (s := t) f.room c with e | e <;> rw [e, hfirst] <;> exact ⟨_, rfl⟩

theorem State.withDropEntry_mismatch (hv : validDrop c = true) (hk : k ≠ .unused) (hr : (s.drop c).reported ≠ none)
    (hn : (s.drop c).reported ≠ some k) : ((s.withDropEntry c k f).latch (dropIndex c)).isSet = true := by
  rw [State.withDropEntry, if_pos ⟨hk, hr, hn⟩, dropLatch]
  exact State.latch_raise_isSet (Nat.lt_of_lt_of_le (dropIndex_lt hv) (by decide)) _

end

/-! ## The Line config (R121, R122) -/

theorem phases_refused {l : List Nat} : (l.any fun n => (phaseOf n).isNone) = true ↔ ∃ n ∈ l, phaseOf n = none := by
  simp only [List.any_eq_true, Option.isNone_iff_eq_none]

/-- Settles O32: the drop entry by its checks in order, and the line entry by its phases. -/
theorem loadsOfDropAndLine : Obligations.LoadsOfDropAndLine := by
  intro s tag
  refine ⟨?drop, ?line⟩
  case drop =>
    intro drop fields c h t d others place
    refine ⟨fun hbad => exec_load_refused h (load := fun t => t.loadDropTable drop fields) rfl rfl
      (State.loadDropTable_bad hbad), fun k hv hk => ?_⟩
    intro roomBad pantryBad same
    have hothers (f : Drop → Bool) : t.others drop f = others f := by
      simp only [State.others, t, State.taken_drop]
      rfl
    have hroom : t.roomRefused drop k fields.room ↔ roomBad := by
      simp only [State.roomRefused, hothers]
      rfl
    have hpantry : t.pantryRefused drop k fields.pantry ↔ pantryBad := by
      simp only [State.pantryRefused, hothers]
      rfl
    have hbad : t.dropTableBad drop k fields = true ↔ roomBad ∨ pantryBad := by
      rw [State.dropTableBad_iff, hroom, hpantry]
    have hd : t.drop drop = d := State.taken_drop ..
    have hload := State.loadDropTable_kind (s := t) hv hk
    rw [hd] at hload
    have hgood (hr : ¬roomBad) (hp : ¬pantryBad) : ¬t.dropTableBad drop k fields = true := fun hb =>
      (hbad.1 hb).elim hr hp
    refine ⟨fun hb => ?_, fun hr hp hs => ?_, fun hr hp hs hm => ?_, fun hr hp hs hm =>
      ⟨(t.withDropEntry drop k fields).resumeWalk drop.line, ?_⟩⟩
    · exact exec_load_refused h (load := fun t => t.loadDropTable drop fields) rfl rfl
        (hload.trans (if_pos (hbad.2 hb)))
    · exact exec_load_taken h (load := fun t => t.loadDropTable drop fields) rfl rfl
        (hload.trans ((if_neg (hgood hr hp)).trans (if_pos hs)))
    · exact exec_load_refused h (load := fun t => t.loadDropTable drop fields) rfl rfl
        (hload.trans ((if_neg (hgood hr hp)).trans ((if_neg hs).trans (if_pos hm))))
    · have hexec := exec_load_taken h (load := fun t => t.loadDropTable drop fields) rfl rfl
        (hload.trans ((if_neg (hgood hr hp)).trans ((if_neg hs).trans (if_neg (not_not_intro hm)))))
      obtain ⟨stale, hentry⟩ := State.withDropEntry_same (s := t) (k := k) (f := fields) hv
      rw [hd] at hentry
      have hline : drop.line < 4 := by
        simp only [validDrop, Bool.and_eq_true, decide_eq_true_eq] at hv
        omega
      simp only [State.drop_resumeWalk, State.latch_resumeWalk, hentry]
      refine ⟨hexec, trivial, trivial, trivial, trivial, trivial, trivial, fun x hx => ?_, fun hu hn hne => ?_,
        State.line_resumeWalk hline⟩
      · have hother := State.withDropEntry_other (s := t) (k := k) (f := fields) hx
        rwa [State.taken_drop] at hother
      · exact State.withDropEntry_mismatch hv hu (by rwa [hd]) (by rwa [hd])
  case line =>
    intro line fields c h t hlen
    refine ⟨fun hbad => ?_, fun hl hc hp => ?_⟩
    · refine exec_load_refused h (load := fun t => t.loadLineConfig line fields) rfl (decide_eq_true hlen) (if_pos ?_)
      rwa [phases_refused]
    · intro u
      have hload : t.loadLineConfig line fields = .ok (u.resumeWalk line, fields.phases.contains 32) := by
        refine if_neg ?_
        rw [phases_refused]
        rintro (hbig | hbig | ⟨n, hn, hnone⟩)
        · omega
        · omega
        · exact hp n hn hnone
      refine ⟨exec_load_taken h (load := fun t => t.loadLineConfig line fields) rfl (decide_eq_true hlen) hload, ?_,
        State.line_resumeWalk (by omega)⟩
      rw [State.resumeWalk_frame]
      exact State.taken_drops ..

end Sys2Proof.Machine
end

section
/-! PROOFS. The presence of drops and the lines' states (R125 to R130, R147, R158). -/

namespace Sys2Proof.Machine

variable {s : State} {tag : Tag}

/-! ## Readers of a state in which a cause was raised -/

section

variable (i : Nat) (x : Cause)

theorem State.drop_raise (c : DropCode) : (s.raise i x).drop c = s.drop c := by rw [State.raise_frame]; rfl
theorem State.pantry_raise (p : Nat) : (s.raise i x).pantry p = s.pantry p := by rw [State.raise_frame]; rfl
theorem State.line_raise (l : Nat) : (s.raise i x).line l = s.line l := by rw [State.raise_frame]; rfl
theorem State.order_raise (id : OrderId) : (s.raise i x).order id = s.order id := by rw [State.raise_frame]; rfl

/-- A set latch stays set as causes are raised. -/
theorem State.isSet_raise {j : Nat} (h : (s.latch j).isSet = true) : ((s.raise i x).latch j).isSet = true := by
  by_cases hj : j = i
  · subst hj
    by_cases hlt : j < 121
    · exact State.latch_raise_isSet hlt x
    · rwa [State.raise, if_pos (by unfold floorLatch; omega)]
  · rwa [State.latch_raise_other hj]

end

/-! ## What the presence of drops leaves -/

/-- A change of drops, links and latches alone. -/
def State.DropWork (s t : State) : Prop := t = { s with
  drops := t.drops, pantries := t.pantries, riser := t.riser, latches := t.latches, unsent := t.unsent
  flushCount := t.flushCount, discardCount := t.discardCount }

theorem State.DropWork.trans {t u : State} (h : s.DropWork t) (k : t.DropWork u) : s.DropWork u := by
  unfold State.DropWork at *
  rw [k, h]

/-- What becoming absent keeps: all but drops, links and latches, the tie of each drop with its pantry, the latches that
are set and the links that are DOWN. -/
structure State.Absence (s t : State) : Prop where
  work : s.DropWork t
  kind : ∀ c, (t.drop c).kind = (s.drop c).kind
  serves : ∀ c, (t.drop c).pantry = (s.drop c).pantry
  bound : ∀ p, (t.pantry p).drop = (s.pantry p).drop
  set : ∀ i, (s.latch i).isSet = true → (t.latch i).isSet = true
  down : ∀ p, (s.pantry p).link = .down → (t.pantry p).link = .down

theorem State.Absence.refl : s.Absence s := ⟨rfl, fun _ => rfl, fun _ => rfl, fun _ => rfl, fun _ h => h, fun _ h => h⟩

theorem State.Absence.trans {t u : State} (h : s.Absence t) (k : t.Absence u) : s.Absence u where
  work := h.work.trans k.work
  kind c := (k.kind c).trans (h.kind c)
  serves c := (k.serves c).trans (h.serves c)
  bound p := (k.bound p).trans (h.bound p)
  set i hi := k.set i (h.set i hi)
  down p hp := k.down p (h.down p hp)

/-- The drops serve the pantries that they served. -/
theorem State.Absence.servedPantry {t : State} (h : s.Absence t) (c : DropCode) :
    t.servedPantry c = s.servedPantry c := by
  have hserving (p : Nat) : t.servingDrop p = s.servingDrop p := by
    simp only [State.servingDrop, h.bound, h.kind, h.serves]
  simp only [State.servedPantry, h.kind, h.serves, hserving]

theorem State.raise_absence (i : Nat) (x : Cause) : s.Absence (s.raise i x) where
  work := by
    unfold State.DropWork
    rw [State.raise_frame]
  kind c := by rw [State.drop_raise]
  serves c := by rw [State.drop_raise]
  bound p := by rw [State.pantry_raise]
  set j := State.isSet_raise i x
  down p hp := by rwa [State.pantry_raise]

theorem State.modDrop_absence {c : DropCode} {f : Drop → Drop} (hk : ∀ d, (f d).kind = d.kind)
    (hp : ∀ d, (f d).pantry = d.pantry) : s.Absence (s.modDrop c f) := by
  have hframe := s.modDrop_frame c f
  have hdrop (d : DropCode) : (s.modDrop c f).drop d = s.drop d ∨ (s.modDrop c f).drop d = f (s.drop d) := by
    by_cases hd : d = c
    · subst hd
      by_cases hv : validDrop d = true
      · exact .inr (State.drop_modDrop_same hv f)
      · exact .inl (by rw [State.modDrop, if_neg hv])
    · exact .inl (State.drop_modDrop_other hd f)
  constructor
  · unfold State.DropWork
    rw [hframe]
  · exact fun d => (hdrop d).elim (fun e => by rw [e]) fun e => by rw [e, hk]
  · exact fun d => (hdrop d).elim (fun e => by rw [e]) fun e => by rw [e, hp]
  all_goals rw [hframe]
  · exact fun p => rfl
  · exact fun i h => h
  · exact fun p h => h

theorem State.modPantry_absence {p : Nat} {f : Pantry → Pantry} (hd : ∀ x, (f x).drop = x.drop)
    (hl : ∀ x, x.link = .down → (f x).link = .down) : s.Absence (s.modPantry p f) where
  work := rfl
  kind c := rfl
  serves c := rfl
  bound q := by
    by_cases hq : q = p
    · subst hq
      by_cases hlt : q < 8
      · rw [State.pantry_modPantry_same hlt, hd]
      · simp [State.pantry, State.modPantry, hlt]
    · rw [State.pantry_modPantry_other hq]
  set i h := h
  down q h := by
    by_cases hq : q = p
    · subst hq
      by_cases hlt : q < 8
      · rw [State.pantry_modPantry_same hlt]
        exact hl _ h
      · simpa [State.pantry, State.modPantry, hlt] using h
    · rwa [State.pantry_modPantry_other hq]

theorem State.linkDown_absence (p : Nat) : s.Absence (s.linkDown p) :=
  State.modPantry_absence (fun x => by split <;> rfl) fun x h => by rw [if_pos h]; exact h

/-- A link taken DOWN is DOWN. -/
theorem State.linkDown_link {p : Nat} (h : p < 8) : ((s.linkDown p).pantry p).link = .down := by
  rw [State.linkDown, State.pantry_modPantry_same h]
  split
  · assumption
  · rfl

/-- A pantry that a drop serves is one of the eight. -/
theorem State.servedPantry_lt {c : DropCode} {p : Nat} (h : s.servedPantry c = some p) : p < 8 := by
  unfold State.servedPantry at h
  split at h
  next q hk hq =>
    split at h
    next hserve =>
      cases h
      unfold State.servingDrop at hserve
      by_contra hlt
      simp [State.pantry, hlt, Pantry.reset] at hserve
    next => cases h
  next => cases h

/-! ## A drop becomes absent (R147) -/

/-- A drop that is not present stays as it is. -/
theorem State.becomeAbsent_absent {c : DropCode} (h : (s.drop c).present = false) : s.becomeAbsent c = s :=
  if_neg (by rw [h]; exact Bool.false_ne_true)

theorem State.becomeAbsent_present {c : DropCode} (h : (s.drop c).present = true) : s.becomeAbsent c =
    match s.servedPantry c with
    | some p => (((s.modDrop c fun d => { d with present := false }).raise (dropIndex c) .presence)).linkDown p
    | none => (s.modDrop c fun d => { d with present := false }).raise (dropIndex c) .presence := by
  rw [State.becomeAbsent, if_pos h] <;> rfl

theorem State.becomeAbsent_absence (c : DropCode) : s.Absence (s.becomeAbsent c) := by
  have hmod : s.Absence (s.modDrop c fun d => { d with present := false }) :=
    State.modDrop_absence (fun _ => rfl) fun _ => rfl
  have hfirst : s.Absence ((s.modDrop c fun d => { d with present := false }).raise (dropIndex c) .presence) :=
    hmod.trans (State.raise_absence _ _)
  cases hp : (s.drop c).present with
  | false => rw [State.becomeAbsent_absent hp]; exact .refl
  | true =>
    rw [State.becomeAbsent_present hp]
    cases s.servedPantry c with
    | none => exact hfirst
    | some p => exact hfirst.trans (State.linkDown_absence p)

theorem State.drop_linkDown (p : Nat) (c : DropCode) : (s.linkDown p).drop c = s.drop c := rfl

/-- The Drop Table as a drop becomes absent. -/
theorem State.drop_becomeAbsent (c d : DropCode) :
    (s.becomeAbsent c).drop d = (s.modDrop c fun d => { d with present := false }).drop d := by
  cases hp : (s.drop c).present with
  | false =>
    rw [State.becomeAbsent_absent hp, State.modDrop_id]
    rw [← hp]
  | true =>
    rw [State.becomeAbsent_present hp]
    cases s.servedPantry c with
    | none => exact State.drop_raise ..
    | some p => exact (State.drop_linkDown ..).trans (State.drop_raise ..)

/-- A present drop that becomes absent has its cause raised. -/
theorem State.latch_becomeAbsent {c : DropCode} (hv : validDrop c = true) (hp : (s.drop c).present = true) :
    ((s.becomeAbsent c).latch (dropIndex c)).isSet = true := by
  have hlt : dropIndex c < 121 := Nat.lt_of_lt_of_le (dropIndex_lt hv) (by decide)
  have hset := State.latch_raise_isSet (s := s.modDrop c fun d => { d with present := false }) hlt .presence
  rw [State.becomeAbsent_present hp]
  cases s.servedPantry c with
  | none => exact hset
  | some p => exact (State.linkDown_absence p).set _ hset

/-- The link of the pantry that it serves goes DOWN with it. -/
theorem State.link_becomeAbsent {c : DropCode} {p : Nat} (hp : (s.drop c).present = true)
    (hs : s.servedPantry c = some p) : ((s.becomeAbsent c).pantry p).link = .down := by
  rw [State.becomeAbsent_present hp, hs]
  exact State.linkDown_link (State.servedPantry_lt hs)

/-! ## A line leaves RUNNING (R130, R158) -/

/-- The in-flight item of a failed turn: a SHOW is to be shown again, and an item is counted. -/
theorem Drop.loseItem_eq (d : Drop) : d.loseItem = { d with
    inFlight := .none
    stale := if d.inFlight = .show then true else d.stale
    droppedItems := if d.inFlight = .content ∨ d.inFlight = .service then min (d.droppedItems + 1) 65535
      else d.droppedItems } := by
  obtain ⟨_, _, _, _, _, _, _, _, _, _, _, inFlight, _, _⟩ := d
  cases inFlight <;> rfl

/-- What leaving RUNNING makes of a drop. -/
def Drop.left (d : Drop) : Drop := { d with
  present := false, miss := 0, inFlight := .none
  stale := if d.inFlight = .show then true else d.stale
  droppedItems := if d.inFlight = .content ∨ d.inFlight = .service then min (d.droppedItems + 1) 65535
    else d.droppedItems }

theorem State.drop_leaveDrop_same {c : DropCode} (hv : validDrop c = true) :
    (s.leaveDrop c).drop c = (s.drop c).left := by
  rw [State.leaveDrop, State.drop_modDrop_same hv, State.drop_becomeAbsent, State.drop_modDrop_same hv,
    Drop.loseItem_eq, Drop.left]

theorem State.drop_leaveDrop_other {c d : DropCode} (h : d ≠ c) : (s.leaveDrop c).drop d = s.drop d := by
  rw [State.leaveDrop, State.drop_modDrop_other h, State.drop_becomeAbsent, State.drop_modDrop_other h]

theorem State.leaveDrop_absence (c : DropCode) : s.Absence (s.leaveDrop c) :=
  (State.becomeAbsent_absence c).trans
    (State.modDrop_absence (fun d => by rw [Drop.loseItem_eq]) fun d => by rw [Drop.loseItem_eq])

theorem State.leaveDrops_absence (l : List DropCode) : s.Absence (l.foldl State.leaveDrop s) :=
  foldl_frame State.Absence (fun _ => .refl) State.Absence.trans (fun _ c => State.leaveDrop_absence c) l s

theorem lineDrops_nodup (l : Nat) : (lineDrops l).Nodup :=
  List.nodup_range.map fun a b h => by simpa using h

theorem mem_lineDrops {l : Nat} {c : DropCode} : c ∈ lineDrops l ↔ c.line = l ∧ 1 ≤ c.addr ∧ c.addr ≤ 15 := by
  obtain ⟨line, addr⟩ := c
  simp only [lineDrops, List.mem_map, List.mem_range, DropCode.mk.injEq]
  constructor
  · rintro ⟨a, ha, rfl, rfl⟩
    omega
  · rintro ⟨rfl, h1, h2⟩
    exact ⟨addr - 1, by omega, rfl, by omega⟩

/-- The state in which a line has lost its turn and its walk. -/
def State.stopLine (s : State) (l : Nat) : State :=
  s.modLine l fun x => { x with turn := none, reload := false, incoming := none, walk := .walking, pointer := 0 }

theorem State.leaveRunning_eq (l : Nat) :
    s.leaveRunning l = (lineDrops l).foldl State.leaveDrop (s.stopLine l) := rfl

theorem State.leaveRunning_absence (l : Nat) : (s.stopLine l).Absence (s.leaveRunning l) :=
  State.leaveDrops_absence (lineDrops l)

/-- The record of a line that leaves RUNNING is the only one that changes. -/
theorem State.leaveRunning_lines (l : Nat) : (s.leaveRunning l).lines = (s.stopLine l).lines := by
  rw [(State.leaveRunning_absence l).work]

/-- What leaving RUNNING makes of a present drop of the line, at its own place in the run. -/
theorem State.leaveRunning_present {l : Nat} {c : DropCode} (hc : c ∈ lineDrops l) (hv : validDrop c = true)
    (hp : (s.drop c).present = true) : ((s.leaveRunning l).latch (dropIndex c)).isSet = true ∧
      ∀ p, s.servedPantry c = some p → ((s.leaveRunning l).pantry p).link = .down := by
  obtain ⟨before, after, hb, -, hrun⟩ := foldl_at (lineDrops_nodup l) hc
  rw [State.leaveRunning_eq, hrun]
  generalize hu : before.foldl State.leaveDrop (s.stopLine l) = u
  have hub : (s.stopLine l).Absence u := hu ▸ State.leaveDrops_absence before
  have hdrop : u.drop c = s.drop c := by
    rw [← hu, foldl_local_not_mem State.drop State.leaveDrop (fun _ _ _ h => State.drop_leaveDrop_other h) _ hb]
    rfl
  have hpu : (u.drop c).present = true := by rw [hdrop, hp]
  have hrest : (u.becomeAbsent c).Absence (after.foldl State.leaveDrop (u.leaveDrop c)) :=
    State.Absence.trans (State.modDrop_absence (fun d => by rw [Drop.loseItem_eq]) fun d => by rw [Drop.loseItem_eq])
      (State.leaveDrops_absence after)
  refine ⟨hrest.set _ (State.latch_becomeAbsent hv hpu), fun p hs => hrest.down p (State.link_becomeAbsent hpu ?_)⟩
  rw [hub.servedPantry]
  exact hs

/-- Settles O38: by the run over the line's drops. -/
theorem leavingRunningLosesTheDrops : Obligations.LeavingRunningLosesTheDrops := by
  intro s l hl
  have hline (j : Nat) : (s.leaveRunning l).line j = (s.stopLine l).line j := by
    simp only [State.line, State.leaveRunning_lines]
  have hwork := (s.leaveRunning_absence l).work
  refine ⟨?_, fun j hj => ?_, fun a h1 h15 => ?_, fun c hc => ?_, ?_⟩
  · rw [hline, State.stopLine, State.line_modLine_same (by omega)]
  · rw [hline, State.stopLine, State.line_modLine_other hj]
  · intro c d
    have hmem : c ∈ lineDrops l := mem_lineDrops.2 ⟨rfl, h1, h15⟩
    have hv : validDrop c = true := by
      simp only [validDrop, c, Bool.and_eq_true, decide_eq_true_eq]
      omega
    refine ⟨?_, fun hp => ?_, fun p hp => (State.leaveRunning_present hmem hv hp).2 p⟩
    · obtain ⟨u, hu, hfold⟩ := foldl_local_mem State.drop State.leaveDrop
        (fun _ _ _ h => State.drop_leaveDrop_other h) (lineDrops_nodup l) (s.stopLine l) hmem
      rw [State.leaveRunning_eq, hfold, State.drop_leaveDrop_same hv, hu]
      rfl
    · exact (State.leaveRunning_present hmem hv hp).1
  · rw [State.leaveRunning_eq, foldl_local_not_mem State.drop State.leaveDrop
      (fun _ _ _ h => State.drop_leaveDrop_other h) _ fun h => hc (mem_lineDrops.1 h).1]
    rfl
  · rw [hwork]
    exact ⟨rfl, rfl, rfl, rfl, rfl⟩

/-! ## The states of a line (R125 to R129) -/

/-- A line's record in a new state. -/
def State.lineAt (s : State) (l : Nat) (st : LineState) (feed low : Bool) : State :=
  s.modLine l fun x => { x with state := st, feed := feed, breakLow := low }

theorem State.setLine_running {l : Nat} (h : (s.line l).state = .running) (st : LineState) (feed low : Bool) :
    s.setLine l st feed low = (s.leaveRunning l).lineAt l st feed low := by
  rw [State.setLine, if_pos h, State.lineAt]

theorem State.setLine_stopped {l : Nat} (h : (s.line l).state ≠ .running) (st : LineState) (feed low : Bool) :
    s.setLine l st feed low = s.lineAt l st feed low := by
  rw [State.setLine, if_neg h, State.lineAt]

section

variable {l : Nat}

theorem exec_linePowerOn (h : s.manages (.linePowerOn tag l) .control tag) (hl : l ≤ 3) :
    exec (.linePowerOn tag l) s =
      .next (((s.taken (.linePowerOn tag l) .control tag).powerOn l).reply .control tag .ok .none).sent :=
  exec_inRange (act := fun t => (t.powerOn l).reply .control tag .ok .none) h rfl rfl (decide_eq_true hl)

theorem exec_linePowerOff (h : s.manages (.linePowerOff tag l) .control tag) (hl : l ≤ 3) {t : State}
    (ht : t = s.taken (.linePowerOff tag l) .control tag) : exec (.linePowerOff tag l) s = .next (State.sent
      ((if (s.line l).state = .off then t else t.setLine l .off false false).reply .control tag .ok .none)) := by
  subst ht
  rw [exec_inRange (act := fun t => (if (t.line l).state = .off then t else t.setLine l .off false false).reply
    .control tag .ok .none) h rfl rfl (decide_eq_true hl)]
  simp only [State.taken_line]

/-- LINE_BREAK's rule on a line of the table. -/
def State.breakLine (s : State) (tag : Tag) (l : Nat) : State :=
  match (s.line l).state with
  | .running => (s.setLine l .breaking true true).reply .control tag .ok .none
  | .settling | .breaking => s.reply .control tag .ok .none
  | .off | .fault => s.reply .control tag .badState .none

theorem exec_lineBreak (h : s.manages (.lineBreak tag l) .control tag) (hl : l ≤ 3) :
    exec (.lineBreak tag l) s = .next ((s.taken (.lineBreak tag l) .control tag).breakLine tag l).sent :=
  exec_inRange (act := fun t => t.breakLine tag l) h rfl rfl (decide_eq_true hl)

end

/-- POWER_FAULT's rule. -/
def State.faultLine (s : State) (l : Nat) : State :=
  match (s.line l).state with
  | .settling | .breaking | .running => (s.setLine l .fault false false).raise (lineLatch l) .powerFault
  | .off | .fault => s

/-- A line with its feed on goes to FAULT. -/
theorem State.faultLine_fed {l : Nat}
    (h : (s.line l).state = .settling ∨ (s.line l).state = .breaking ∨ (s.line l).state = .running) :
    s.faultLine l = (s.setLine l .fault false false).raise (lineLatch l) .powerFault := by
  unfold State.faultLine
  rcases h with e | e | e <;> rw [e]

theorem State.faultLine_off {l : Nat} (h : (s.line l).state = .off ∨ (s.line l).state = .fault) :
    s.faultLine l = s := by
  unfold State.faultLine
  rcases h with e | e <;> rw [e]

theorem exec_powerFault (h : s.atRest) (l : Nat) :
    exec (.powerFault l) s = .next ((s.takeDue (.powerFault l)).faultLine l).sent := by
  show execPowerFault l s = _
  rw [execPowerFault, run_next h]
  rfl

/-- Settles O37: each command by the state of its line. -/
theorem lineStatesAndPower : Obligations.LineStatesAndPower := by
  refine ⟨fun s tag line haccepts hrestart => ?requests, fun s line hrest hl => ⟨fun hs => ?settling,
    fun hs hlow => ?low, fun hs hlow => ?quiet, fun hs => ?stopped, fun hs => ?running, fun hs => ?off⟩⟩
  case requests =>
    have hmanages {c : Instr} (ht : s.inTurn c) : s.manages c .control tag := ⟨haccepts, hrestart, ht⟩
    have hline (c : Instr) : (s.taken c .control tag).line line = s.line line := State.taken_line ..
    intro on off brk does moved
    refine ⟨fun hbad c hc ht => ?_, fun hl => ⟨fun hs => ⟨fun ht => ?_, fun ht => ?_⟩, fun hs ht => ?_, fun hs ht => ?_,
      fun hoff hrun ht => ?_, fun hs => ⟨fun ht => ?_, fun ht => ?_⟩, fun hs ht => ?_⟩⟩
    · rcases hc with rfl | rfl | rfl <;>
        exact exec_outOfRange (hmanages ht) rfl (decide_eq_false (Nat.not_le.2 hbad))
    · have hstopped : ((s.taken on .control tag).line line).state ≠ .running := by
        rw [hline]
        rcases hs with e | e <;> rw [e] <;> nofun
      rw [exec_linePowerOn (hmanages ht) hl, State.powerOn, if_pos (by rw [hline]; exact hs),
        State.setLine_stopped hstopped]
      rfl
    · rw [exec_lineBreak (hmanages ht) hl, State.breakLine, hline]
      rcases hs with e | e <;> rw [e] <;> rfl
    · have hno : ¬(((s.taken on .control tag).line line).state = .off ∨
          ((s.taken on .control tag).line line).state = .fault) := by
        rw [hline]
        rcases hs with e | e | e <;> rw [e] <;> nofun
      rw [exec_linePowerOn (hmanages ht) hl, State.powerOn, if_neg hno]
      rfl
    · rw [exec_linePowerOff (hmanages ht) hl rfl, if_pos hs]
      rfl
    · rw [exec_linePowerOff (hmanages ht) hl rfl, if_neg hoff, State.setLine_stopped (by rwa [hline])]
      rfl
    · rw [exec_linePowerOff (hmanages ht) hl rfl, if_neg (by rw [hs]; nofun), State.setLine_running (by rwa [hline])]
      rfl
    · rw [exec_lineBreak (hmanages ht) hl, State.breakLine, hline, hs]
      simp only
      rw [State.setLine_running (by rwa [hline])]
      rfl
    · rw [exec_lineBreak (hmanages ht) hl, State.breakLine, hline]
      rcases hs with e | e <;> rw [e] <;> rfl
  case settling =>
    have hline : ((s.takeDue (.settlingEnd line)).line line).state = .settling := hs
    show execSettlingEnd line s = _
    rw [execSettlingEnd, run_next hrest, if_pos hline, State.setLine_stopped (by rw [hline]; nofun)]
    rfl
  case low =>
    show execBreakLowEnd line s = _
    rw [execBreakLowEnd, run_next hrest, if_pos ⟨hs, hlow⟩]
  case quiet =>
    have hlow' : (!((s.takeDue (.breakQuietEnd line)).line line).breakLow) = true :=
      (Bool.not_eq_true' _).symm ▸ hlow
    show execBreakQuietEnd line s = _
    rw [execBreakQuietEnd, run_next hrest, if_pos ⟨hs, hlow'⟩]
    rfl
  case stopped =>
    have hstopped : ((s.takeDue (.powerFault line)).line line).state ≠ .running := by
      show (s.line line).state ≠ .running
      rcases hs with e | e <;> rw [e] <;> nofun
    rw [exec_powerFault hrest, State.faultLine_fed (s := s.takeDue (.powerFault line)) (hs.imp_right .inl),
      State.setLine_stopped hstopped]
    rfl
  case running =>
    rw [exec_powerFault hrest, State.faultLine_fed (s := s.takeDue (.powerFault line)) (.inr (.inr hs)),
      State.setLine_running (s := s.takeDue (.powerFault line)) hs]
    rfl
  case off => rw [exec_powerFault hrest, State.faultLine_off (s := s.takeDue (.powerFault line)) hs]

end Sys2Proof.Machine
end

section
/-! PROOFS. The pantry links, the replay's fault and DROP_MODE (R89, R98, R100, R114, R115, R149, R150). -/

namespace Sys2Proof.Machine

variable {s : State} {tag : Tag}

/-! ## A link's fault (R100) -/

theorem Order.failsAt_iff {p : Nat} {o : Order} : Order.failsAt p o = true ↔
    o.pantry = p ∧ (o.state = .sent ∨ o.state = .queued ∨ o.state = .cancelPending) := by
  simp only [Order.failsAt, Bool.and_eq_true, Bool.or_eq_true, decide_eq_true_eq, or_assoc]

/-- An order after the fault of a pantry's link. -/
def Order.faulted (p : Nat) (o : Order) : Order :=
  if Order.failsAt p o then { o with state := .failed, cancelPending := false, seq := none }
  else if o.pantry = p then { o with cancelPending := false, seq := none } else o

theorem Order.faulted_id (p : Nat) (o : Order) : (o.faulted p).id = o.id := by
  unfold Order.faulted
  split
  · rfl
  · split <;> rfl

/-- Work handed over one piece at a time joins the tail of the work that is due. -/
theorem foldl_hand {α : Type} (f : α → Instr) (l : List α) (t : State) :
    l.foldl (fun t a => t.hand (f a)) t = { t with due := t.due ++ l.map f } := by
  induction l generalizing t with
  | nil => simp
  | cons a l ih =>
    rw [List.foldl_cons, ih, State.hand]
    simp only [List.map_cons, List.append_assoc, List.singleton_append]

/-- The open orders of a pantry, which its link's fault fails. -/
def State.failing (s : State) (p : Nat) : List Order := s.orders.filter (Order.failsAt p)

theorem State.failLink_eq (p : Nat) : s.failLink p = { s with
    orders := s.orders.map (Order.faulted p)
    pantries := updAt s.pantries p fun x =>
      { x with dispatch := [], cancels := [], replay := [], replayPos := none, replayTimer := none }
    due := s.due ++ (s.failing p).map fun o => .orderOutcomeNotice o.res o.id } := by
  unfold State.failLink
  exact foldl_hand (fun o : Order => .orderOutcomeNotice o.res o.id) _ _

theorem find?_map_id {f : Order → Order} (hf : ∀ o, (f o).id = o.id) (l : List Order) (id : OrderId) :
    (l.map f).find? (fun o => o.id = id) = (l.find? fun o => o.id = id).map f := by
  rw [List.find?_map]
  simp only [Function.comp_def, hf]

theorem State.order_failLink (p : Nat) (id : OrderId) : (s.failLink p).order id = (s.order id).map (Order.faulted p) := by
  rw [State.failLink_eq]
  exact find?_map_id (Order.faulted_id p) s.orders id

/-- An open order of the pantry has failed, with its notice handed over. -/
theorem State.failLink_fails {p : Nat} {id : OrderId} {o : Order} (h : s.order id = some o)
    (hf : Order.failsAt p o = true) :
    (s.failLink p).order id = some { o with state := .failed, cancelPending := false, seq := none } ∧
      Instr.orderOutcomeNotice o.res id ∈ (s.failLink p).due := by
  constructor
  · rw [State.order_failLink, h, Option.map_some, Order.faulted, if_pos hf]
  · rw [State.failLink_eq]
    refine List.mem_append_right _ (List.mem_map.2 ⟨o, List.mem_filter.2 ⟨List.mem_of_find?_eq_some h, hf⟩, ?_⟩)
    rw [State.order_id h]

theorem State.failLink_other {p : Nat} {id : OrderId} {o : Order} (h : s.order id = some o) (hp : o.pantry ≠ p) :
    (s.failLink p).order id = some o := by
  have hf : ¬Order.failsAt p o = true := fun hf => hp (Order.failsAt_iff.1 hf).1
  rw [State.order_failLink, h, Option.map_some, Order.faulted, if_neg hf, if_neg hp]

theorem State.failLink_settled {p : Nat} {id : OrderId} {o : Order} (h : s.order id = some o) (hp : o.pantry = p)
    (hf : ¬Order.failsAt p o = true) :
    (s.failLink p).order id = some { o with cancelPending := false, seq := none } := by
  rw [State.order_failLink, h, Option.map_some, Order.faulted, if_neg hf, if_pos hp]

theorem State.pantry_failLink_same {p : Nat} (h : p < 8) : (s.failLink p).pantry p = { s.pantry p with
    dispatch := [], cancels := [], replay := [], replayPos := none, replayTimer := none } := by
  rw [State.failLink_eq]
  exact State.pantry_modPantry_same (s := s) h _

theorem State.pantry_failLink_other {p q : Nat} (h : q ≠ p) : (s.failLink p).pantry q = s.pantry q := by
  rw [State.failLink_eq]
  exact State.pantry_modPantry_other (s := s) h _

/-! ## A replay without progress (R110, R114, R115) -/

section

variable {p : Nat} (hp : p < 8) (pos : Nat) (again : Bool)
include hp

theorem State.startReplay_again (h : (s.pantry p).replayCount < 3) : s.startReplay p pos again =
    s.modPantry p fun x => { x with
      replayCount := x.replayCount + 1, replayPos := if x.replay = [] then none else some pos
      replayTimer := if again then some (.start x.timeoutCode) else x.replayTimer } := by
  have hcount : ¬4 ≤ ((s.modPantry p fun x => { x with replayCount := min 4 (x.replayCount + 1) }).pantry
      p).replayCount := by
    rw [State.pantry_modPantry_same hp]
    show ¬4 ≤ min 4 ((s.pantry p).replayCount + 1)
    omega
  rw [State.startReplay]
  simp only [if_neg hcount, State.modPantry_modPantry]
  refine State.modPantry_congr ?_
  rw [Nat.min_eq_right (by omega)]

theorem State.startReplay_faults (h : 3 ≤ (s.pantry p).replayCount) : s.startReplay p pos again =
    (s.modPantry p fun x => { x with replayCount := min 4 (x.replayCount + 1) }).linkFault p := by
  have hcount : 4 ≤ ((s.modPantry p fun x => { x with replayCount := min 4 (x.replayCount + 1) }).pantry
      p).replayCount := by
    rw [State.pantry_modPantry_same hp]
    exact Nat.le_min.2 ⟨Nat.le_refl 4, by omega⟩
  rw [State.startReplay]
  exact if_pos hcount

end

/-- A link's fault changes the orders, the pantry, the notices due and the Event Unit. -/
theorem State.linkFault_frame (p : Nat) : s.linkFault p = { s with
    orders := s.orders.map (Order.faulted p), pantries := (s.linkFault p).pantries
    due := s.due ++ (s.failing p).map fun o => .orderOutcomeNotice o.res o.id
    riser := (s.linkFault p).riser, latches := (s.linkFault p).latches, unsent := (s.linkFault p).unsent
    flushCount := (s.linkFault p).flushCount, discardCount := (s.linkFault p).discardCount } := by
  unfold State.linkFault
  rw [State.raise_frame, State.failLink_eq]
  rfl

theorem Pantry.timerEnds_iff {x : Pantry} : x.timerEnds = true ↔
    ∃ timer, x.replayTimer = some timer ∧ timer.left ≤ 1000 * (1 + timer.cuts) ∧
      (timer.left < timer.period ∨ 0 < timer.cuts) := by
  simp only [Pantry.timerEnds, Option.any_eq_true, Bool.and_eq_true, decide_eq_true_eq]

theorem exec_replayTimerExpiry (h : s.atRest) {p : Nat} {t : State} (ht : t = s.takeDue (.replayTimerExpiry p)) :
    exec (.replayTimerExpiry p) s = .next (State.sent
      (if (s.pantry p).timerEnds ∧ p < 8 then t.startReplay p 0 true else t)) := by
  subst ht
  show execReplayTimerExpiry p s = _
  rw [execReplayTimerExpiry, run_next h]
  rfl

/-- PANTRY_RESYNC's rule on a pantry of the table. -/
def State.resync (s : State) (tag : Tag) (p : Nat) : State :=
  match (s.pantry p).link with
  | .down => s.reply .control tag .notPresent .none
  | .syncing => s.reply .control tag .ok .none
  | .up | .faulted => (s.modPantry p fun x => x.leaveUp .syncing).reply .control tag .ok .none

theorem exec_pantryResync {p : Nat} (h : s.manages (.pantryResync tag p) .control tag) (hp : p ≤ 7) :
    exec (.pantryResync tag p) s = .next ((s.taken (.pantryResync tag p) .control tag).resync tag p).sent :=
  exec_manages (act := fun t => t.resync tag p) h rfl (decide_eq_true hp)

/-- Settles O41: by the link's state, and the expiry by the timer and the replay count. -/
theorem pantryLinkResyncAndFault : Obligations.PantryLinkResyncAndFault := by
  intro s pantry
  refine ⟨fun tag h => ⟨fun hbad => ?_, fun hp => ⟨fun hl => ?_, fun hl => ?_, fun hl => ?_⟩⟩,
    fun hrest hp hno => ?none, fun timer hrest hp htimer hleft hbegun => ⟨fun hcount hreplay => ?again,
      fun hcount => ?fault⟩⟩
  · exact exec_badForm (k := .control) (by rw [managed, decide_eq_false (by omega)]) h.1 h.2.2
  · rw [exec_pantryResync h hp, State.resync, State.taken_pantry, hl]
    rfl
  · rw [exec_pantryResync h hp, State.resync, State.taken_pantry, hl]
    rfl
  · rw [exec_pantryResync h hp, State.resync, State.taken_pantry]
    rcases hl with e | e <;> rw [e] <;> rfl
  case none =>
    have hends : ¬((s.pantry pantry).timerEnds = true ∧ pantry < 8) := by
      rintro ⟨hends, -⟩
      obtain ⟨timer, ht, hl, hb⟩ := Pantry.timerEnds_iff.1 hends
      rcases hno timer ht with h | h <;> omega
    rw [exec_replayTimerExpiry hrest rfl, if_neg hends]
  case again =>
    have hends : (s.pantry pantry).timerEnds = true ∧ pantry < 8 :=
      ⟨Pantry.timerEnds_iff.2 ⟨timer, htimer, hleft, hbegun⟩, by omega⟩
    refine ⟨_, (exec_replayTimerExpiry hrest rfl).trans (by rw [if_pos hends]), ?_⟩
    rw [State.startReplay_again (s := s.takeDue _) hends.2 0 true hcount]
    refine ⟨?_, fun q hq => State.pantry_modPantry_other hq _, rfl, rfl, rfl⟩
    rw [State.pantry_modPantry_same hends.2]
    exact congrArg (fun r => { s.pantry pantry with
      replayCount := (s.pantry pantry).replayCount + 1, replayPos := r
      replayTimer := some (.start (s.pantry pantry).timeoutCode) }) (if_neg hreplay)
  case fault =>
    have hends : (s.pantry pantry).timerEnds = true ∧ pantry < 8 :=
      ⟨Pantry.timerEnds_iff.2 ⟨timer, htimer, hleft, hbegun⟩, by omega⟩
    refine ⟨_, (exec_replayTimerExpiry hrest rfl).trans (by rw [if_pos hends]), ?_⟩
    rw [State.startReplay_faults (s := s.takeDue _) hends.2 0 true hcount]
    generalize ht : ((s.takeDue (.replayTimerExpiry pantry)).modPantry pantry fun x =>
      { x with replayCount := min 4 (x.replayCount + 1) }).modPantry pantry (fun x => x.leaveUp .faulted) = t
    have horder (id : OrderId) : t.order id = s.order id := by rw [← ht]; rfl
    have hpantry : t.pantry pantry = { s.pantry pantry with
        replayCount := 4, link := .faulted, replayPos := none, replayTimer := none } := by
      rw [← ht, State.pantry_modPantry_same hends.2, State.pantry_modPantry_same hends.2]
      show Pantry.leaveUp { s.pantry pantry with replayCount := min 4 ((s.pantry pantry).replayCount + 1) } .faulted = _
      rw [Nat.min_eq_left (by omega)]
      rfl
    have hother (q : Nat) (hq : q ≠ pantry) : t.pantry q = s.pantry q := by
      rw [← ht, State.pantry_modPantry_other hq, State.pantry_modPantry_other hq]
      rfl
    have hfault : ((s.takeDue (.replayTimerExpiry pantry)).modPantry pantry fun x =>
        { x with replayCount := min 4 (x.replayCount + 1) }).linkFault pantry =
        (t.failLink pantry).raise (64 + pantry) .pantryFault := by rw [← ht]; rfl
    have hframe : t.pool = s.pool ∧ t.clock = s.clock := by rw [← ht]; exact ⟨rfl, rfl⟩
    rw [hfault]
    simp only [State.pantry_raise, State.pantry_failLink_same hends.2, hpantry, State.order_raise, State.raise_due,
      State.raise_pool, State.raise_clock]
    refine ⟨trivial, trivial, trivial, trivial, trivial, trivial, trivial, trivial, fun q hq => ?_,
      fun id o ho hp hf => ?_, fun id o ho hp => ?_, ?_, ?_, ?_⟩
    · rw [State.pantry_failLink_other hq, hother q hq]
    · exact State.failLink_fails ((horder id).trans ho) (Order.failsAt_iff.2 ⟨hp, hf⟩)
    · exact State.failLink_other ((horder id).trans ho) hp
    · exact State.latch_raise_isSet (by omega) _
    · rw [State.failLink_eq]; exact hframe.1
    · rw [State.failLink_eq]; exact hframe.2

/-! ## A drop in a new mode (R150, R158) -/

/-- Whether a drop has the turn of its line. -/
def State.hasTurn (s : State) (c : DropCode) : Bool :=
  match s.turnOf c.line with
  | some t => t.addr = c.addr
  | none => false

theorem State.hasTurn_iff {c : DropCode} :
    s.hasTurn c = true ↔ ∃ x, s.turnOf c.line = some x ∧ x.addr = c.addr := by
  unfold State.hasTurn
  cases s.turnOf c.line <;> simp

/-- The dropped items counted by a change to a mode, before the in-flight item. -/
def Drop.emptied (d : Drop) (m : DropMode) : Nat :=
  if m = .isolated then min (d.droppedItems + d.fifo.length) 65535 else d.droppedItems

/-- The stale flag by a change to a mode, before the in-flight item. -/
def Drop.staleIn (d : Drop) : DropMode → Bool
  | .isolated => false
  | .excluded => d.stale
  | .shadow | .normal => if d.kind = .roomPanel then true else d.stale

theorem Drop.inMode_eq (d : Drop) (m : DropMode) (turn : Bool) : d.inMode m turn = { d with
    mode := m
    answer := if m = .isolated then none else d.answer
    fifo := if m = .isolated then [] else d.fifo
    inFlight := if turn = true then .none else d.inFlight
    stale := if turn = true ∧ d.inFlight = .show then true else d.staleIn m
    droppedItems := if turn = true ∧ (d.inFlight = .content ∨ d.inFlight = .service) then
      min (d.emptied m + 1) 65535 else d.emptied m } := by
  unfold Drop.inMode Drop.emptied
  cases turn with
  | false => cases m <;> rfl
  | true =>
    simp only [true_and, if_true, Drop.loseItem_eq]
    cases m <;> rfl

theorem Drop.inMode_kind (d : Drop) (m : DropMode) (turn : Bool) : (d.inMode m turn).kind = d.kind := by
  rw [Drop.inMode_eq]

theorem Drop.inMode_pantry (d : Drop) (m : DropMode) (turn : Bool) : (d.inMode m turn).pantry = d.pantry := by
  rw [Drop.inMode_eq]

/-! ## The parts of a change of mode -/

/-- The state in which a drop is in its new mode, before its pantry's link, its turn and the walk. -/
def State.inMode (s : State) (c : DropCode) (m : DropMode) : State := s.modDrop c fun d => d.inMode m (s.hasTurn c)

theorem State.changeMode_eq (c : DropCode) (m : DropMode) :
    s.changeMode c m = (((s.inMode c m).linkForMode c m).abandonTurn c).resumeWalk c.line := rfl

theorem State.inMode_servedPantry (c x : DropCode) (m : DropMode) :
    (s.inMode c m).servedPantry x = s.servedPantry x :=
  State.Absence.servedPantry
    (State.modDrop_absence (fun d => Drop.inMode_kind d m _) fun d => Drop.inMode_pantry d m _) x

/-- An abandoned turn is in the lines' records alone. -/
theorem State.abandonTurn_frame (c : DropCode) : s.abandonTurn c = { s with lines := (s.abandonTurn c).lines } := by
  unfold State.abandonTurn
  split
  · split <;> rfl
  · rfl

/-- A change of mode reaches orders, pantries and due work through the link alone. -/
theorem State.linkForMode_frame (c : DropCode) (m : DropMode) : s.linkForMode c m = { s with
    pantries := (s.linkForMode c m).pantries, orders := (s.linkForMode c m).orders, due := (s.linkForMode c m).due } := by
  unfold State.linkForMode
  split
  · rfl
  · split
    · rw [State.failLink_eq]; rfl
    · rfl
    · rfl
    · split <;> rfl

theorem State.changeMode_drop (c x : DropCode) (m : DropMode) :
    (s.changeMode c m).drop x = (s.inMode c m).drop x := by
  rw [State.changeMode_eq, State.drop_resumeWalk, State.abandonTurn_frame, State.linkForMode_frame]
  rfl

/-- What the walk's resumption and the abandoned turn leave of the link's part. -/
theorem State.changeMode_tables (c : DropCode) (m : DropMode) :
    (s.changeMode c m).pantries = ((s.inMode c m).linkForMode c m).pantries ∧
    (s.changeMode c m).orders = ((s.inMode c m).linkForMode c m).orders := by
  rw [State.changeMode_eq, State.resumeWalk_frame, State.abandonTurn_frame]
  exact ⟨rfl, rfl⟩

theorem State.resumeWalk_due (l : Nat) : s.due <+: (s.resumeWalk l).due := by
  unfold State.resumeWalk State.handWalk State.handOnce
  split
  · split
    · exact List.prefix_refl _
    · exact List.prefix_append ..
  · exact List.prefix_refl _

/-- The notices of the link's part stay due, in their order. -/
theorem State.changeMode_due (c : DropCode) (m : DropMode) :
    ((s.inMode c m).linkForMode c m).due <+: (s.changeMode c m).due := by
  have h := State.resumeWalk_due (s := ((s.inMode c m).linkForMode c m).abandonTurn c) c.line
  have hdue : (((s.inMode c m).linkForMode c m).abandonTurn c).due = ((s.inMode c m).linkForMode c m).due := by
    rw [State.abandonTurn_frame]
  rw [State.changeMode_eq]
  rwa [hdue] at h

theorem State.turn_resumeWalk {l : Nat} (h : l < 4) : ((s.resumeWalk l).line l).turn = (s.line l).turn := by
  unfold State.resumeWalk
  split
  · rw [State.handWalk, State.line_handOnce, State.line_modLine_same h]
  · rfl

theorem State.changeMode_turn {c : DropCode} (m : DropMode) (hl : c.line < 4) {x : Turn}
    (hx : s.turnOf c.line = some x) (ha : x.addr = c.addr) :
    ((s.changeMode c m).line c.line).turn = some { x with abandoned := true } := by
  have hturn : ((s.inMode c m).linkForMode c m).turnOf c.line = some x := by
    rw [State.linkForMode_frame, State.inMode, State.modDrop_frame]
    exact hx
  rw [State.changeMode_eq, State.turn_resumeWalk hl, State.abandonTurn, hturn]
  simp only [if_pos ha, State.line_modLine_same hl]

/-! ## The checks of a DROP_MODE (R149) -/

theorem DropMode.served_iff {m : DropMode} : m.served = true ↔ m = .normal ∨ m = .shadow := by
  cases m <;> simp [DropMode.served]

section

variable {c : DropCode} {m : DropMode}

theorem State.modeCheck_low (h : ¬(m = .normal ∨ m = .shadow)) : s.modeCheck c m = none := by
  rw [State.modeCheck, Bool.eq_false_iff.2 (mt DropMode.served_iff.1 h)]
  rfl

theorem State.modeCheck_high (h : m = .normal ∨ m = .shadow) : s.modeCheck c m =
    if (s.drop c).kind = .unused then some .badState
    else if (s.line c.line).state ≠ .running ∨ (s.drop c).present = false then some .notPresent
    else if (s.drop c).reported ≠ some (s.drop c).kind then some .kindMismatch
    else none := by
  rw [State.modeCheck, DropMode.served_iff.2 h]
  simp only [Bool.not_true, Bool.false_eq_true, if_false, Bool.not_eq_true']

theorem State.modeCheck_passes (h : m = .normal ∨ m = .shadow → (s.drop c).kind ≠ .unused ∧
    (s.line c.line).state = .running ∧ (s.drop c).present = true ∧ (s.drop c).reported = some (s.drop c).kind) :
    s.modeCheck c m = none := by
  by_cases hm : m = .normal ∨ m = .shadow
  · obtain ⟨hk, hrun, hp, hr⟩ := h hm
    rw [State.modeCheck_high hm, if_neg hk, if_neg (by simp [hrun, hp]), if_neg (not_not_intro hr)]
  · exact State.modeCheck_low hm

end

/-- DROP_MODE's rule with a mode that it names. -/
def State.takeMode (s : State) (tag : Tag) (drop : DropCode) (m : DropMode) : State :=
  match s.modeCheck drop m with
  | some code => s.reply .control tag code .none
  | none => (if (s.drop drop).mode = m then s.resumeWalk drop.line else s.changeMode drop m).reply .control tag .ok .none

/-- DROP_MODE's rule. -/
def State.dropMode (tag : Tag) (drop : DropCode) (mode : Nat) (s : State) : State :=
  match dropModeOf mode with
  | none => s.reply .control tag .badMessage .none
  | some m => s.takeMode tag drop m

theorem exec_dropMode (drop : DropCode) (mode : Nat) : exec (.dropMode tag drop mode) s =
    run (.dropMode tag drop mode) s (manage .control tag (.dropMode tag drop mode) s.settled (dropModeOf mode).isSome
      (inRange .control tag (validDrop drop) (State.dropMode tag drop mode))) := rfl

theorem exec_dropMode_takes {drop : DropCode} {mode : Nat} {m : DropMode}
    (h : s.manages (.dropMode tag drop mode) .control tag) (hv : validDrop drop = true) (hm : dropModeOf mode = some m) :
    exec (.dropMode tag drop mode) s =
      .next ((s.taken (.dropMode tag drop mode) .control tag).takeMode tag drop m).sent := by
  rw [exec_inRange h (exec_dropMode drop mode) (by rw [hm]; rfl) hv, State.dropMode, hm]

theorem State.takeMode_refused {drop : DropCode} {m : DropMode} {code : Code} (h : s.modeCheck drop m = some code) :
    s.takeMode tag drop m = s.reply .control tag code .none := by
  rw [State.takeMode, h]

theorem State.takeMode_passes {drop : DropCode} {m : DropMode} (h : s.modeCheck drop m = none) :
    s.takeMode tag drop m =
      (if (s.drop drop).mode = m then s.resumeWalk drop.line else s.changeMode drop m).reply .control tag .ok .none := by
  rw [State.takeMode, h]

/-! ## The link's part of a change of mode (R98, R100, R150) -/

section

variable {c : DropCode} {p : Nat}

theorem State.linkForMode_none {m : DropMode} (h : s.servedPantry c = none) : s.linkForMode c m = s := by
  rw [State.linkForMode, h]

theorem State.linkForMode_isolated (h : s.servedPantry c = some p) :
    s.linkForMode c .isolated = (s.modPantry p fun x => x.leaveUp .down).failLink p := by
  rw [State.linkForMode, h]

theorem State.linkForMode_low {m : DropMode} (h : s.servedPantry c = some p) (hm : m = .excluded ∨ m = .shadow) :
    s.linkForMode c m = s.linkDown p := by
  rw [State.linkForMode, h]
  rcases hm with rfl | rfl <;> rfl

theorem State.linkForMode_normal (h : s.servedPantry c = some p) (hp : (s.drop c).present = true) :
    s.linkForMode c .normal = s.linkRise p := by
  rw [State.linkForMode, h]
  exact if_pos hp

theorem State.pantry_linkDown (h : p < 8) : (s.linkDown p).pantry p =
    if (s.pantry p).link = .down then s.pantry p
    else { s.pantry p with link := .down, replayPos := none, replayTimer := none } :=
  State.pantry_modPantry_same h _

theorem State.pantry_linkRise (h : p < 8) : (s.linkRise p).pantry p =
    if (s.pantry p).link = .down then { s.pantry p with link := .syncing, replayPos := none, replayTimer := none }
    else s.pantry p :=
  State.pantry_modPantry_same h _

/-- The link's part leaves every other pantry. -/
theorem State.pantry_linkForMode_other {m : DropMode} (h : s.servedPantry c = some p) {q : Nat} (hq : q ≠ p) :
    (s.linkForMode c m).pantry q = s.pantry q := by
  rw [State.linkForMode, h]
  cases m with
  | isolated => exact (State.pantry_failLink_other hq).trans (State.pantry_modPantry_other hq _)
  | excluded => exact State.pantry_modPantry_other hq _
  | shadow => exact State.pantry_modPantry_other hq _
  | normal =>
    simp only
    split
    · exact State.pantry_modPantry_other hq _
    · rfl

end

section

variable {c : DropCode} {m : DropMode}

theorem State.changeMode_drop_same (hv : validDrop c = true) :
    (s.changeMode c m).drop c = (s.drop c).inMode m (s.hasTurn c) := by
  rw [State.changeMode_drop, State.inMode, State.drop_modDrop_same hv]

theorem State.changeMode_drop_other {x : DropCode} (h : x ≠ c) : (s.changeMode c m).drop x = s.drop x := by
  rw [State.changeMode_drop, State.inMode, State.drop_modDrop_other h]

theorem State.changeMode_walk (hl : c.line < 4) : ((s.changeMode c m).line c.line).walk = .walking :=
  State.line_resumeWalk hl

theorem State.inMode_frame : s.inMode c m = { s with drops := (s.inMode c m).drops } := State.modDrop_frame ..

theorem State.changeMode_order (id : OrderId) :
    (s.changeMode c m).order id = ((s.inMode c m).linkForMode c m).order id := by
  simp only [State.order, State.changeMode_tables]

theorem State.changeMode_pantry (q : Nat) :
    (s.changeMode c m).pantry q = ((s.inMode c m).linkForMode c m).pantry q := by
  simp only [State.pantry, State.changeMode_tables]

theorem State.order_inMode (id : OrderId) : (s.inMode c m).order id = s.order id := by rw [State.inMode_frame]; rfl

theorem State.pantry_inMode (q : Nat) : (s.inMode c m).pantry q = s.pantry q := by rw [State.inMode_frame]; rfl

/-- The drop's own record by its new mode, its queue and its turn. -/
theorem State.changeMode_items (hv : validDrop c = true) :
    let d := s.drop c
    let u := s.changeMode c m
    let inTurn : Prop := ∃ x, s.turnOf c.line = some x ∧ x.addr = c.addr
    let base := if m = .isolated then min (d.droppedItems + d.fifo.length) 65535 else d.droppedItems
    let lostShow : Prop := inTurn ∧ d.inFlight = .show
    let lostItem : Prop := inTurn ∧ (d.inFlight = .content ∨ d.inFlight = .service)
    (inTurn → (u.drop c).inFlight = .none) ∧ (¬ inTurn → (u.drop c).inFlight = d.inFlight) ∧
    (lostItem → (u.drop c).droppedItems = min (base + 1) 65535) ∧
    (¬ lostItem → (u.drop c).droppedItems = base) ∧
    (lostShow → (u.drop c).stale = true) ∧
    (¬ lostShow → (m = .isolated → (u.drop c).stale = false) ∧ (m = .excluded → (u.drop c).stale = d.stale)) ∧
    (m = .normal ∨ m = .shadow → d.kind = .roomPanel → (u.drop c).stale = true) := by
  intro d u inTurn base lostShow lostItem
  have hturn : s.hasTurn c = true ↔ inTurn := State.hasTurn_iff
  have hu : u.drop c = d.inMode m (s.hasTurn c) := State.changeMode_drop_same hv
  rw [hu, Drop.inMode_eq]
  simp only [hturn]
  refine ⟨fun h => if_pos h, fun h => if_neg h, fun h => if_pos h, fun h => if_neg h, fun h => if_pos h,
    fun h => ⟨fun hm => ?_, fun hm => ?_⟩, fun hm hk => ?_⟩
  · rw [hm]
    exact if_neg h
  · rw [hm]
    exact if_neg h
  · have hstale : d.staleIn m = true := by
      rcases hm with rfl | rfl <;> exact if_pos hk
    rw [hstale, ite_self]

/-- The pantry that the drop serves, its orders and their notices, by the new mode. -/
theorem State.changeMode_served {p : Nat} (hs : s.servedPantry c = some p)
    (hpresent : m = .normal → (s.drop c).present = true) (hv : validDrop c = true) :
    let x := s.pantry p
    let u := s.changeMode c m
    let fails (o : Order) : Prop := o.pantry = p ∧ (o.state = .sent ∨ o.state = .queued ∨ o.state = .cancelPending)
    (∀ q, q ≠ p → u.pantry q = s.pantry q) ∧
    (m = .isolated →
      u.pantry p = { x with
        link := .down, dispatch := [], cancels := [], replay := [], replayPos := none, replayTimer := none } ∧
      (∀ id o, s.order id = some o → fails o →
        u.order id = some { o with state := .failed, cancelPending := false, seq := none } ∧
        Instr.orderOutcomeNotice o.res id ∈ u.due) ∧
      (∀ id o, s.order id = some o → o.pantry = p → ¬ fails o →
        u.order id = some { o with cancelPending := false, seq := none }) ∧
      (∀ id o, s.order id = some o → o.pantry ≠ p → u.order id = some o) ∧
      (s.due ++ (s.orders.filter fun o => decide (fails o)).map fun o => Instr.orderOutcomeNotice o.res o.id) <+:
        u.due) ∧
    (m = .excluded ∨ m = .shadow →
      u.orders = s.orders ∧ (x.link = .down → u.pantry p = x) ∧
      (x.link ≠ .down → u.pantry p = { x with link := .down, replayPos := none, replayTimer := none })) ∧
    (m = .normal →
      u.orders = s.orders ∧ (x.link ≠ .down → u.pantry p = x) ∧
      (x.link = .down → u.pantry p = { x with link := .syncing, replayPos := none, replayTimer := none })) := by
  intro x u fails
  have hp : p < 8 := State.servedPantry_lt hs
  have hs' : (s.inMode c m).servedPantry c = some p := (State.inMode_servedPantry c c m).trans hs
  have horders : (s.inMode c m).orders = s.orders := by rw [State.inMode_frame]
  have hpantry : (s.inMode c m).pantry p = x := State.pantry_inMode p
  refine ⟨fun q hq => ?other, fun hm => ?isolated, fun hm => ?low, fun hm => ?normal⟩
  case other => rw [State.changeMode_pantry, State.pantry_linkForMode_other hs' hq, State.pantry_inMode]
  case isolated =>
    subst hm
    generalize ht : (s.inMode c .isolated).modPantry p (fun x => x.leaveUp .down) = t
    have hlink : (s.inMode c .isolated).linkForMode c .isolated = t.failLink p := by
      rw [State.linkForMode_isolated hs', ht]
    have horder (id : OrderId) : t.order id = s.order id := by
      rw [← ht]
      exact State.order_inMode id
    have hdue : t.due = s.due ∧ t.orders = s.orders := by
      rw [← ht]
      show (s.inMode c .isolated).due = _ ∧ (s.inMode c .isolated).orders = _
      rw [State.inMode_frame]
      exact ⟨rfl, rfl⟩
    have hafter : (t.failLink p).due <+: u.due := hlink ▸ State.changeMode_due c .isolated
    have hfails (o : Order) : fails o ↔ Order.failsAt p o = true := Order.failsAt_iff.symm
    refine ⟨?_, fun id o ho hf => ⟨?_, ?_⟩, fun id o ho hp hf => ?_, fun id o ho hp => ?_, ?_⟩
    · rw [State.changeMode_pantry, hlink, State.pantry_failLink_same hp, ← ht, State.pantry_modPantry_same hp, hpantry]
      rfl
    · rw [State.changeMode_order, hlink]
      exact (State.failLink_fails ((horder id).trans ho) ((hfails o).1 hf)).1
    · exact hafter.subset (State.failLink_fails ((horder id).trans ho) ((hfails o).1 hf)).2
    · rw [State.changeMode_order, hlink]
      exact State.failLink_settled ((horder id).trans ho) hp fun h => hf ((hfails o).2 h)
    · rw [State.changeMode_order, hlink]
      exact State.failLink_other ((horder id).trans ho) hp
    · rw [State.failLink_eq] at hafter
      have hfilter : t.failing p = s.orders.filter fun o => decide (fails o) := by
        rw [State.failing, hdue.2]
        refine List.filter_congr fun o _ => ?_
        rw [Bool.eq_iff_iff, decide_eq_true_eq, hfails]
      rwa [← hfilter, ← hdue.1]
  case low =>
    have hlink := State.linkForMode_low hs' hm
    refine ⟨?_, ?_⟩
    · rw [(State.changeMode_tables c m).2, hlink]
      exact horders
    · rw [State.changeMode_pantry, hlink, State.pantry_linkDown hp, hpantry]
      exact ⟨fun h => if_pos h, fun h => if_neg h⟩
  case normal =>
    subst hm
    have hlink := State.linkForMode_normal hs' (by
      rw [State.inMode, State.drop_modDrop_same hv, Drop.inMode_eq]
      exact hpresent rfl)
    refine ⟨?_, ?_⟩
    · rw [(State.changeMode_tables c .normal).2, hlink]
      exact horders
    · rw [State.changeMode_pantry, hlink, State.pantry_linkRise hp, hpantry]
      exact ⟨fun h => if_neg h, fun h => if_pos h⟩

end

theorem line_lt_of_valid {c : DropCode} (h : validDrop c = true) : c.line < 4 := by
  simp only [validDrop, Bool.and_eq_true, decide_eq_true_eq] at h
  omega

/-- Settles O39: by the checks in order, then the parts of the change of mode. -/
theorem dropModeIsCheckedAndTaken : Obligations.DropModeIsCheckedAndTaken := by
  intro s tag drop mode c h t d refused
  refine ⟨fun hbad => ?bad, fun m hv hm => ?takes⟩
  case bad =>
    cases hm : dropModeOf mode with
    | none => exact exec_badForm (k := .control) (by rw [managed, hm]; rfl) h.1 h.2.2
    | some m =>
      exact exec_outOfRange h (exec_dropMode drop mode) (hbad.resolve_right (by rw [hm]; nofun))
  case takes =>
    have hexec := exec_dropMode_takes h hv hm
    have hd : t.drop drop = d := State.taken_drop ..
    have hline : t.line drop.line = s.line drop.line := State.taken_line ..
    intro high passed
    have hhigh (hh : high) : t.modeCheck drop m =
        if d.kind = .unused then some .badState
        else if (s.line drop.line).state ≠ .running ∨ d.present = false then some .notPresent
        else if d.reported ≠ some d.kind then some .kindMismatch
        else none := by
      rw [State.modeCheck_high hh, hd, hline]
    have hpasses (hp : passed) : t.modeCheck drop m = none :=
      State.modeCheck_passes (by rw [hd, hline]; exact hp)
    refine ⟨fun hh hk => ?_, fun hh hk hn => ?_, fun hh hk hrun hp hr => ?_, fun hp hsame => ?_, fun hp hnew => ?change⟩
    · exact hexec.trans (by rw [State.takeMode_refused ((hhigh hh).trans (if_pos hk)), State.replies])
    · exact hexec.trans (by
        rw [State.takeMode_refused ((hhigh hh).trans ((if_neg hk).trans (if_pos hn))), State.replies])
    · have hno : ¬((s.line drop.line).state ≠ .running ∨ d.present = false) := by simp [hrun, hp]
      exact hexec.trans (by rw [State.takeMode_refused
        ((hhigh hh).trans ((if_neg hk).trans ((if_neg hno).trans (if_pos hr)))), State.replies])
    · exact hexec.trans (by rw [State.takeMode_passes (hpasses hp), hd, if_pos hsame])
    case change =>
      intro u
      have hturn : t.turnOf drop.line = s.turnOf drop.line := State.taken_turnOf ..
      have hserved : t.servedPantry drop = s.servedPantry drop := State.taken_servedPantry ..
      have hentry : u.drop drop = d.inMode m (t.hasTurn drop) := by
        rw [State.changeMode_drop_same hv, hd]
      have hitems := State.changeMode_items (s := t) (m := m) hv
      simp only [hd, hturn] at hitems
      have hfields := Drop.inMode_eq d m (t.hasTurn drop)
      refine ⟨hexec.trans (by rw [State.takeMode_passes (hpasses hp), hd, if_neg hnew]), ?_, ?_, ?_, ?_, ?_,
        fun hm => ?_, hitems, fun hm => ?_, fun x hx => ?_, fun x hx ha => State.changeMode_turn m (line_lt_of_valid hv)
          (hturn.trans hx) ha, fun hs => ?_, fun p hs => ?_, State.changeMode_walk (line_lt_of_valid hv)⟩
      · rw [hentry, hfields]
      · rw [hentry, hfields]
      · rw [hentry, hfields]
      · rw [hentry, hfields]
      · rw [hentry, hfields]
      · rw [hentry, hfields]
        exact ⟨if_pos hm, if_pos hm⟩
      · rw [hentry, hfields]
        exact ⟨if_neg hm, if_neg hm⟩
      · rw [State.changeMode_drop_other hx, State.taken_drop]
      · have hlink : (t.inMode drop m).linkForMode drop m = t.inMode drop m :=
          State.linkForMode_none ((State.inMode_servedPantry drop drop m).trans (hserved.trans hs))
        rw [(State.changeMode_tables drop m).1, (State.changeMode_tables drop m).2, hlink, State.inMode_frame]
        exact ⟨State.taken_pantries .., State.taken_orders ..⟩
      · have hall := State.changeMode_served (s := t) (m := m) (hserved.trans hs)
          (fun hm => by rw [hd]; exact (hp (.inl hm)).2.2.1) hv
        simpa only [State.taken_pantry, State.taken_order, State.taken_orders, t] using hall

end Sys2Proof.Machine
end

section
/-! PROOFS. The event latches, the boot memory's writes and RESTART (R183, R188 to R190, R193 to R195). -/

namespace Sys2Proof.Machine

variable {s : State} {tag : Tag}

/-! ## Raising a cause (R193, R194) -/

/-- A latch as a cause is raised on it while it is clear. -/
def Latch.raised (l : Latch) (cause : BitVec 8) : Latch :=
  { l with isSet := true, causes := cause, pendingCount := 0, pendingCauses := 0, raiseCount := 1 }

/-- A latch whose EVENT joins the unsent list. -/
def State.waitUnsent (s : State) (i : Nat) : State :=
  { s.modLatch i fun l => { l with unsent := true } with unsent := s.unsent ++ [i] }

theorem State.placeEvent_full {i : Nat} (h : s.freeEntries = 0) : s.placeEvent i = s.waitUnsent i :=
  if_neg (by rw [h]; decide)

theorem State.placeEvent_free {i : Nat} (h : 0 < s.freeEntries) : s.placeEvent i = s.composeEvent i := if_pos h

section

variable {i : Nat} (hi : i ≤ 120) (c : Cause)
include hi

theorem State.raise_set (h : (s.latch i).isSet = true) : s.raise i c = s.modLatch i fun l =>
    { l with pendingCount := min (l.pendingCount + 1) 15, pendingCauses := l.pendingCauses ||| c.bit } := by
  rw [State.raise, floorLatch, if_neg (Nat.not_lt.2 hi), if_pos h]
  rfl

theorem State.raise_clear (h : (s.latch i).isSet = false) :
    s.raise i c = (s.modLatch i fun l => l.raised c.bit).placeEvent i := by
  rw [State.raise, floorLatch, if_neg (Nat.not_lt.2 hi), if_neg (by rw [h]; exact Bool.false_ne_true)]
  rfl

theorem State.raise_full (h : (s.latch i).isSet = false) (hf : s.freeEntries = 0) :
    s.raise i c = (s.modLatch i fun l => l.raised c.bit).waitUnsent i :=
  (State.raise_clear hi c h).trans (State.placeEvent_full (s := s.modLatch i _) hf)

theorem State.raise_free (h : (s.latch i).isSet = false) (hf : 0 < s.freeEntries) :
    s.raise i c = (s.modLatch i fun l => l.raised c.bit).composeEvent i :=
  (State.raise_clear hi c h).trans (State.placeEvent_free (s := s.modLatch i _) hf)

theorem State.latch_raised : (s.modLatch i fun l => l.raised c.bit).latch i = (s.latch i).raised c.bit :=
  State.latch_modLatch_same (by omega) _

/-- The latch itself once a cause is raised on it while it is clear. -/
theorem State.latch_raise_same (h : (s.latch i).isSet = false) : (s.raise i c).latch i = { s.latch i with
    isSet := true, causes := c.bit, pendingCount := 0, pendingCauses := 0, raiseCount := 1
    unsent := if s.freeEntries = 0 then true else (s.latch i).unsent } := by
  by_cases hf : s.freeEntries = 0
  · rw [State.raise_full hi c h hf, if_pos hf]
    show (State.modLatch _ i _).latch i = _
    rw [State.latch_modLatch_same (by omega), State.latch_raised hi]
    rfl
  · rw [State.raise_free hi c h (Nat.pos_of_ne_zero hf), if_neg hf, State.composeEvent_latch, State.latch_raised hi]
    rfl

end

/-- An EVENT composed, with the counts that go with its causes. -/
theorem State.composeEvent_eq {i : Nat} {l : Latch} (hl : s.latch i = l) : s.composeEvent i =
    let f := if i = 120 ∧ l.causes &&& 32 ≠ 0 then some s.flushCount else none
    let d := if i = 120 ∧ l.causes &&& 64 ≠ 0 then some s.discardCount else none
    { s with
      riser := { s.riser with localQueue := s.riser.localQueue ++
        [.event s.floor.building s.floor.floor i l.causes l.raiseCount f d] }
      flushCount := if f.isSome then 0 else s.flushCount
      discardCount := if d.isSome then 0 else s.discardCount } := by
  subst hl
  have hcount (p : Prop) [Decidable p] (n : Nat) :
      (if ((if p then some n else none) : Option Nat).isSome then 0 else n) = if p then 0 else n := by
    split <;> rfl
  simp only [hcount]
  rfl

/-! ## The floor latch's counts -/

/-- What raising a cause on the clear floor latch makes of the state, with a free entry. -/
theorem State.raise_floor_free (c : Cause) (h : (s.latch 120).isSet = false) (hf : 0 < s.freeEntries) :
    let f := if c.bit &&& 32 ≠ 0 then some s.flushCount else none
    let d := if c.bit &&& 64 ≠ 0 then some s.discardCount else none
    (s.raise 120 c).riser.localQueue = s.riser.localQueue ++
      [.event s.floor.building s.floor.floor 120 c.bit 1 f d] ∧
    (s.raise 120 c).flushCount = (if f.isSome then 0 else s.flushCount) ∧
    (s.raise 120 c).discardCount = (if d.isSome then 0 else s.discardCount) := by
  rw [State.raise_free (Nat.le_refl 120) c h hf, State.composeEvent_eq (State.latch_raised (Nat.le_refl 120) c)]
  simp only [Latch.raised, true_and]
  exact ⟨rfl, rfl, rfl⟩

/-! ## CLEAR (R195) -/

/-- CLEAR's rule on a latch. -/
def State.clear (tag : Tag) (i : Nat) (s : State) : State :=
  if (s.latch i).isSet && (s.latch i).unsent then s.reply .clear tag .badState .none
  else
    let u := if (s.latch i).isSet then s.clearLatch i else s
    u.reply .clear tag .ok (.cleared (u.latch i).isSet (u.latch i).causes)

theorem exec_clear (i : Nat) : exec (.clear tag i) s =
    run (.clear tag i) s (manage .clear tag (.clear tag i) s.settled (decide (i ≤ 255))
      (inRange .clear tag (decide (i ≤ 120)) (State.clear tag i))) := rfl

theorem State.clear_unset {i : Nat} (h : (s.latch i).isSet = false) :
    s.clear tag i = s.reply .clear tag .ok (.cleared false (s.latch i).causes) := by
  simp only [State.clear, h, Bool.false_and, Bool.false_eq_true, if_false]

theorem State.clear_unsent {i : Nat} (h : (s.latch i).isSet = true) (hu : (s.latch i).unsent = true) :
    s.clear tag i = s.reply .clear tag .badState .none := by
  rw [State.clear, if_pos (by rw [h, hu]; rfl)]

theorem State.clear_sent {i : Nat} (h : (s.latch i).isSet = true) (hu : (s.latch i).unsent = false) :
    s.clear tag i = (s.clearLatch i).reply .clear tag .ok
      (.cleared ((s.clearLatch i).latch i).isSet ((s.clearLatch i).latch i).causes) := by
  rw [State.clear, if_neg (by rw [h, hu]; exact Bool.false_ne_true), if_pos h]

theorem State.clearLatch_clears {i : Nat} (hp : (s.latch i).pendingCount = 0) :
    s.clearLatch i = s.modLatch i fun l => { l with isSet := false, causes := 0 } := if_pos hp

theorem State.clearLatch_reissues {i : Nat} (hp : 0 < (s.latch i).pendingCount) :
    s.clearLatch i = (s.modLatch i fun l => { l with
      causes := l.pendingCauses, raiseCount := l.pendingCount, pendingCount := 0, pendingCauses := 0 }).placeEvent i :=
  if_neg (Nat.ne_of_gt hp)

/-- Placing an EVENT leaves its latch's flag and causes. -/
theorem State.latch_placeEvent {i : Nat} (hi : i ≤ 120) : ((s.placeEvent i).latch i).isSet = (s.latch i).isSet ∧
    ((s.placeEvent i).latch i).causes = (s.latch i).causes := by
  rcases State.placeEvent_cases (s := s) i with ⟨-, e⟩ | ⟨-, e⟩ <;> rw [e]
  · exact ⟨rfl, rfl⟩
  · have h : ({ s.modLatch i (fun l => { l with unsent := true }) with unsent := s.unsent ++ [i] } : State).latch i =
        { s.latch i with unsent := true } := State.latch_modLatch_same (by omega) _
    rw [h]
    exact ⟨rfl, rfl⟩

/-- Settles O42: by the latch's flag and the free entries, and the CLEAR by the latch's state. -/
theorem latchesRaiseAndClear : Obligations.LatchesRaiseAndClear := by
  refine ⟨fun s n => ⟨rfl, rfl, fun hn => if_neg (by omega), fun hset => ?set, fun hclear hf => ?flush,
    fun hclear hf hn => ?discard, fun hclear hf => ?full⟩, fun s i => ?place, fun s i hi =>
    ⟨fun cause => State.raise_set hi cause, fun cause h => ⟨State.latch_raise_same hi cause h, fun hf => ?waits,
      fun hf hne => ?event⟩, fun tag h => ?clear, fun tag n h hn => ?range⟩⟩
  case set =>
    have h : (({ s with flushCount := satAdd 65535 s.flushCount n } : State).latch 120).isSet = true := hset
    rw [State.raiseDayFlush, floorLatch, State.raise_set (Nat.le_refl 120) .dayFlush h]
    exact ⟨rfl, rfl⟩
  case flush =>
    exact State.raise_floor_free (s := { s with flushCount := satAdd 65535 s.flushCount n }) .dayFlush hclear hf
  case discard =>
    have hraise : s.raiseDiscarded n = { s with discardCount := satAdd 65535 s.discardCount n }.raise 120 .dirtyDiscarded :=
      if_neg (by omega)
    obtain ⟨hqueue, hflush, hdiscard⟩ := State.raise_floor_free
      (s := { s with discardCount := satAdd 65535 s.discardCount n }) .dirtyDiscarded hclear hf
    rw [hraise]
    exact ⟨hqueue, hdiscard, hflush⟩
  case full =>
    have h : (({ s with flushCount := satAdd 65535 s.flushCount n } : State).latch 120).isSet = false := hclear
    rw [State.raiseDayFlush, floorLatch, State.raise_full (Nat.le_refl 120) .dayFlush h hf]
    exact ⟨rfl, rfl⟩
  case place =>
    intro l flush discard
    refine ⟨fun hf => ⟨_, _, (State.placeEvent_free hf).trans (State.composeEvent_eq rfl), fun h => if_pos h,
      fun h => if_neg h, fun h => if_pos h, fun h => if_neg h⟩, State.placeEvent_full⟩
  case waits =>
    rw [State.raise_full hi cause h hf]
    exact ⟨rfl, rfl⟩
  case event =>
    have hcounts (p : Prop) : ¬(i = 120 ∧ p) := fun hp => hne hp.1
    rw [State.raise_free hi cause h hf, State.composeEvent_eq (State.latch_raised hi cause)]
    simp only [hcounts, if_false]
    exact ⟨rfl, rfl⟩
  case clear =>
    intro t l
    have hexec := exec_inRange h (exec_clear i) (decide_eq_true (by omega)) (decide_eq_true hi)
    have hl : t.latch i = l := State.taken_latch ..
    refine ⟨fun hs => ?_, fun hs hu => ?_, fun hs hu hp => ?_, fun hs hu hp => ?_⟩
    · exact hexec.trans (by rw [State.clear_unset (by rwa [hl]), hl, State.replies])
    · exact hexec.trans (by rw [State.clear_unsent (by rwa [hl]) (by rwa [hl]), State.replies])
    · have hcl := State.clearLatch_clears (s := t) (i := i) (by rwa [hl])
      refine hexec.trans ?_
      rw [State.clear_sent (by rwa [hl]) (by rwa [hl]), hcl, State.latch_modLatch_same (by omega)]
    · have hcl := State.clearLatch_reissues (s := t) (i := i) (by rwa [hl])
      refine hexec.trans ?_
      rw [State.clear_sent (by rwa [hl]) (by rwa [hl]), hcl, (State.latch_placeEvent hi).1,
        (State.latch_placeEvent hi).2, State.latch_modLatch_same (by omega), hl, hs]
  case range => exact exec_outOfRange h (exec_clear n) (decide_eq_false (by omega))

end Sys2Proof.Machine
end

section
/-! PROOFS. The boot memory's writes and RESTART (R183, R188 to R190). -/

namespace Sys2Proof.Machine

variable {s : State} {tag : Tag}

/-! ## RESTART (R183, R190) -/

/-- Every request of the Management Engine is answered BUSY while a RESTART waits, but one of the wrong form. -/
theorem exec_whileRestarting {c : Instr} {k : MsgKind} {form : Bool} (hc : managed c = some (k, tag, form))
    {waiting : Tag} (h : s.accepts k tag) (ht : s.inTurn c) (hform : form = true) (hw : s.restart = some waiting) :
    exec c s = .next (s.replies c k tag .busy .none) := by
  obtain ⟨act, hact⟩ := exec_of_managed hc s
  rw [hact, State.settled_of_atRest h.1, manage_busy h ht hw act hform]

theorem State.handOnce_eq (c : Instr) :
    s.handOnce c = { s with due := if c ∈ s.due then s.due else s.due ++ [c] } := by
  unfold State.handOnce
  split <;> rfl

/-- One with another due ahead of it waits in its place. -/
theorem exec_outOfTurn {c : Instr} (hc : (managed c).isSome = true) (h : s.atRest) (ht : ¬s.inTurn c) :
    exec c s = .next { s with due := if c ∈ s.due then s.due else s.due ++ [c] }.sent := by
  obtain ⟨⟨k, tag, form⟩, hm⟩ := Option.isSome_iff_exists.1 hc
  obtain ⟨act, hact⟩ := exec_of_managed hm s
  rw [hact, State.settled_of_atRest h, manage_waits h ht, State.handOnce_eq]

theorem State.inTurn_iff {c : Instr} : s.inTurn c ↔ ∀ d ∈ s.ahead c, managed d = none := by
  simp only [State.inTurn, List.any_eq_false, isManaged, Option.not_isSome_iff_eq_none]

/-- Settles O44: by the Management Engine's order of checks, and the places in which what waits stands. -/
theorem restartWaitsForItsReply : Obligations.RestartWaitsForItsReply := by
  refine ⟨fun c k tag form hc s waiting h ht => ⟨fun hf => ?bad, fun hf hw => exec_whileRestarting hc h ht hf hw⟩,
    fun c s hc h => ⟨State.inTurn_iff, exec_outOfTurn hc h⟩, fun c again s => ?places, fun s tag h => ?restart,
    fun s tag waiting hw => ⟨fun h ht => exec_whileRestarting rfl h ht rfl hw,
      fun h entry rec ht => exec_whileRestarting rfl h ht rfl hw, fun h line hl ht => exec_whileRestarting rfl h ht rfl hw,
      fun h line hl ht => exec_whileRestarting rfl h ht rfl hw⟩⟩
  case bad =>
    subst hf
    exact exec_badForm hc h ht
  case places =>
    intro waits
    have hwaits : waitsOut = waits := by
      funext d
      cases d <;> rfl
    rw [← hwaits]
    exact ⟨fun h => ⟨ahead_of_absent h, holdBack_of_absent h again⟩,
      fun before after h hd => ⟨ahead_of_split h hd, holdBack_of_split h hd again⟩⟩
  case restart =>
    exact exec_manages (act := fun t => { t.reply .restart tag .ok .none with restart := some tag }) h rfl rfl

/-! ## A write of the boot memory (R188, R189) -/

/-- BOOT_WRITE's rule. -/
def State.bootWrite (tag : Tag) (offset : Nat) (bytes : Bytes) (s : State) : State :=
  if s.boot.write.isSome then s.reply .bootWrite tag .busy .none
  else s.modBoot fun b =>
    { b with write := some { tag := tag, offset := offset, run := bytes, written := 0, readback := false } }

theorem exec_bootWrite (offset : Nat) (bytes : Bytes) : exec (.bootWrite tag offset bytes) s =
    run (.bootWrite tag offset bytes) s
      (manage .bootWrite tag (.bootWrite tag offset bytes) s.settled (decide (bytes.length ≤ 64))
        (inRange .bootWrite tag (decide (1 ≤ bytes.length) && decide (offset + bytes.length ≤ 8192))
          (State.bootWrite tag offset bytes))) := rfl

/-- A page's bytes are acknowledged. -/
theorem exec_bootPageWriteDone (h : s.atRest) {w : Write} (hw : s.boot.write = some w) (hr : w.readback = false) :
    exec .bootPageWriteDone s = .next { s.takeDue .bootPageWriteDone with
      bootMem := memWriteRun s.bootMem (w.offset + w.written) w.chunk
      boot := { s.boot with write := some { w with
        written := w.written + w.chunk.length
        readback := decide (w.run.length ≤ w.written + w.chunk.length) } } }.sent := by
  show execBootPageWriteDone s = _
  rw [execBootPageWriteDone, run_next h]
  simp only [State.takeDue_boot, hw, hr, Bool.false_eq_true, if_false]
  rfl

/-- The state in which the write in flight has ended with its reply. -/
def State.writeEnded (s : State) (c : Instr) (w : Write) (mem : List Host.Cell) (n : Nat) (code : Code) (body : Body) :
    State :=
  ({ s.takeDue c with boot := { s.boot with write := none }, bootMem := mem, freeCount := n }).reply .bootWrite w.tag
    code body

theorem exec_bootWriteAckTimeout (h : s.atRest) {w : Write} (hw : s.boot.write = some w) (hr : w.readback = false) :
    exec .bootWriteAckTimeout s = .next (s.writeEnded .bootWriteAckTimeout w
      (spoilPage s.bootMem (pageBase (w.offset + w.written)) s.freeCount) (s.freeCount + 1) .memoryFault
      (.offset (w.offset + w.written))).sent := by
  show execBootWriteAckTimeout s = _
  rw [execBootWriteAckTimeout, run_next h]
  simp only [State.takeDue_boot, State.takeDue_bootMem, State.takeDue_freeCount, hw, hr, Bool.false_eq_true, if_false,
    State.endWrite, State.modBoot, State.writeEnded]

/-- A read-back ends its write by the first difference. -/
theorem exec_bootReadbackDone (h : s.atRest) {w : Write} (hw : s.boot.write = some w) (hr : w.readback = true)
    (back : Bytes) {mem : List Host.Cell} (hm : mem = memWriteRun s.bootMem w.offset (back.take w.run.length)) :
    exec (.bootReadbackDone back) s = .next (State.sent (match firstDiff w.run back with
      | none => s.writeEnded (.bootReadbackDone back) w mem s.freeCount .ok .none
      | some i => s.writeEnded (.bootReadbackDone back) w mem s.freeCount .memoryFault (.offset (w.offset + i)))) := by
  subst hm
  show execBootReadbackDone back s = _
  rw [execBootReadbackDone, run_next h]
  simp only [State.takeDue_boot, hw, hr, if_true]
  cases firstDiff w.run back <;> rfl

theorem firstDiff_same (w : Bytes) : firstDiff w w = none := by
  simp [firstDiff]

theorem firstDiff_at {w back : Bytes} {k : Nat} (hk : k < w.length) (hd : w[k]? ≠ back[k]?)
    (hb : ∀ j, j < k → w[j]? = back[j]?) : firstDiff w back = some k := by
  refine List.find?_range_eq_some.2 ⟨decide_eq_true hd, List.mem_range.2 hk, fun j hj => ?_⟩
  simp only [Bool.not_eq_true', decide_eq_false_iff_not, not_not]
  exact hb j hj

/-- The bytes of a page's chunk are the run's from those written. -/
theorem Write.chunk_getElem (w : Write) {i : Nat} (h : i < w.chunk.length) :
    w.chunk[i]?.getD 0 = w.run[w.written + i]?.getD 0 := by
  have hlen := h
  rw [Write.chunk_length] at hlen
  rw [Write.chunk, List.getElem?_take, if_pos (by omega), List.getElem?_drop]

/-- A byte of the memory after a run of bytes is written. -/
theorem memRead_written {m : List Host.Cell} (h : memWf m = true) {a : Nat} {bs : Bytes} (ha : a + bs.length ≤ 8192)
    {i : Nat} (hi : i < bs.length) : memRead (memWriteRun m a bs) (a + i) = bs[i]?.getD 0 := by
  rw [memRead_memWriteRun h bs ha, if_pos (by omega), Nat.add_sub_cancel_left]

theorem some_getD {bs : Bytes} {i : Nat} (h : i < bs.length) : some (bs[i]?.getD 0) = bs[i]? := by
  rw [List.getElem?_eq_getElem h, Option.getD_some]

/-- Settles O43: the request's form and range, then each event of the write in flight on the memory. -/
theorem bootWriteFromRequestToReply : Obligations.BootWriteFromRequestToReply := by
  intro s
  refine ⟨fun tag offset run h => ⟨fun hbad => ?bad, fun h1 h64 hend => ⟨fun hw => ?busy, fun hw => ?begun⟩⟩,
    fun w hrest hinv hw => ⟨fun hr hlt => ?page, fun hr => ?unacknowledged, fun back hr hback => ?same,
      fun back k hr hk hdiff hbefore => ?differs⟩⟩
  case bad =>
    by_cases hform : run.length ≤ 64
    · refine exec_outOfRange h (exec_bootWrite offset run) ?_
      rw [Bool.and_eq_false_iff, decide_eq_false_iff_not, decide_eq_false_iff_not]
      omega
    · exact exec_badForm (k := .bootWrite) (by rw [managed, decide_eq_false hform]) h.1 h.2.2
  case busy =>
    have hrange : (decide (1 ≤ run.length) && decide (offset + run.length ≤ 8192)) = true := by
      simp [h1, hend]
    rw [exec_inRange h (exec_bootWrite offset run) (decide_eq_true h64) hrange, State.bootWrite, State.taken_boot,
      if_pos (Option.isSome_iff_ne_none.2 hw), State.replies]
  case begun =>
    have hrange : (decide (1 ≤ run.length) && decide (offset + run.length ≤ 8192)) = true := by
      simp [h1, hend]
    rw [exec_inRange h (exec_bootWrite offset run) (decide_eq_true h64) hrange, State.bootWrite, State.taken_boot, hw,
      if_neg (by exact Bool.false_ne_true), State.modBoot, State.taken_boot]
  all_goals
    obtain ⟨hwf, hwrite⟩ := hinv
    obtain ⟨hend, hwritten, -, -⟩ := hwrite w hw
  case page =>
    have hn : w.chunk.length = min (w.run.length - w.written) (32 - (w.offset + w.written) % 32) := by
      rw [Write.chunk_length, pageBase]
      omega
    refine ⟨memWriteRun s.bootMem (w.offset + w.written) w.chunk, w.chunk.length, hn, exec_bootPageWriteDone hrest hw hr, fun i hi => ?_, fun a ha => ?_⟩
    · rw [memRead_written hwf (by omega) hi, Write.chunk_getElem w hi]
    · exact memRead_memWriteRun_outside _ _ ha
  case unacknowledged =>
    exact ⟨spoilPage s.bootMem (pageBase (w.offset + w.written)) s.freeCount, exec_bootWriteAckTimeout hrest hw hr, fun a ha => memRead_spoilPage _ _ ha⟩
  case same =>
    subst hback
    have hexec := exec_bootReadbackDone hrest hw hr w.run (mem := memWriteRun s.bootMem w.offset w.run)
      (by rw [List.take_length])
    rw [firstDiff_same] at hexec
    refine ⟨_, hexec, fun a ha => memRead_memWriteRun_outside _ _ ha, fun i hi => ?_⟩
    rw [memRead_written hwf hend hi, some_getD hi]
  case differs =>
    have hexec := exec_bootReadbackDone hrest hw hr back rfl
    rw [firstDiff_at hk hdiff hbefore] at hexec
    have hlen : (back.take w.run.length).length = min w.run.length back.length := List.length_take ..
    refine ⟨_, hexec, fun a ha => memRead_memWriteRun_outside _ _ (by rwa [hlen]), fun i hi hib => ?_⟩
    rw [memRead_written hwf (by omega) (by omega), List.getElem?_take, if_pos hi, some_getD hib]

end Sys2Proof.Machine
end

section
/-! PROOFS. Occupancy: the evidence tick, samples, entry reports and tick reports (R65 to R68, R73 to R84). -/

namespace Sys2Proof.Machine

variable {s : State} {tag : Tag}

/-! ## The evidence tick (R77 to R84) -/

/-- What the evidence tick may change: the evidence and the Event Unit; the set latches stay set. -/
structure State.TickWork (s t : State) : Prop where
  work : t = { s with
    evidence := t.evidence, riser := t.riser, latches := t.latches, unsent := t.unsent, flushCount := t.flushCount
    discardCount := t.discardCount }
  set : ∀ i, (s.latch i).isSet = true → (t.latch i).isSet = true

theorem State.TickWork.trans {t u : State} (h : s.TickWork t) (k : t.TickWork u) : s.TickWork u where
  work := by rw [k.work, h.work]
  set i hi := k.set i (h.set i hi)

/-- The record of a room at its tick. -/
def State.tickedEv (s : State) (room : Nat) : Evidence :=
  (s.ev room).tick (s.boundSensor room).isSome (s.classOf room)

theorem State.tickRoom_eq (room : Nat) : s.tickRoom room =
    if (s.tickedEv room).verdict = .unknown ∧ (s.ev room).verdict ≠ .unknown then
      (s.modEv room fun _ => s.tickedEv room).raise (72 + room) .sensorStale
    else s.modEv room fun _ => s.tickedEv room := rfl

theorem State.tickRoom_work (room : Nat) : s.TickWork (s.tickRoom room) := by
  rw [State.tickRoom_eq]
  split
  · exact ⟨by rw [State.raise_frame]; rfl, fun i hi => State.isSet_raise _ _ hi⟩
  · exact ⟨rfl, fun i hi => hi⟩

theorem State.ev_raise (i : Nat) (c : Cause) (room : Nat) : (s.raise i c).ev room = s.ev room := by
  rw [State.raise_frame]; rfl

theorem State.ev_tickRoom_same {room : Nat} (h : room < 48) : (s.tickRoom room).ev room = s.tickedEv room := by
  rw [State.tickRoom_eq]
  split
  · rw [State.ev_raise, State.ev_modEv_same h]
  · rw [State.ev_modEv_same h]

theorem State.ev_tickRoom_other {room j : Nat} (h : j ≠ room) : (s.tickRoom room).ev j = s.ev j := by
  rw [State.tickRoom_eq]
  split
  · rw [State.ev_raise, State.ev_modEv_other h]
  · rw [State.ev_modEv_other h]

theorem State.tickRooms_work (l : List Nat) : s.TickWork (l.foldl State.tickRoom s) :=
  foldl_frame State.TickWork (fun _ => ⟨rfl, fun _ h => h⟩) State.TickWork.trans (fun _ r => State.tickRoom_work r) l s

/-- What a tick's work leaves, the readers leave. -/
theorem State.TickWork.reads {t : State} (h : s.TickWork t) (room : Nat) :
    t.boundSensor room = s.boundSensor room ∧ t.classOf room = s.classOf room := by
  rw [h.work]
  exact ⟨rfl, rfl⟩

theorem allRooms_nodup : allRooms.Nodup := List.nodup_range

theorem mem_allRooms {r : Nat} : r ∈ allRooms ↔ r < 48 := List.mem_range

/-- A room's record after the run, and its latch when its verdict has become UNKNOWN. -/
theorem State.tickRooms_room {room : Nat} (h : room < 48) :
    (allRooms.foldl State.tickRoom s).ev room = s.tickedEv room ∧
    ((s.tickedEv room).verdict = .unknown → (s.ev room).verdict ≠ .unknown →
      ((allRooms.foldl State.tickRoom s).latch (72 + room)).isSet = true) := by
  obtain ⟨before, after, hb, ha, hrun⟩ := foldl_at allRooms_nodup (mem_allRooms.2 h)
  rw [hrun]
  generalize hu : before.foldl State.tickRoom s = u
  have hev : u.ev room = s.ev room := by
    rw [← hu]
    exact foldl_local_not_mem State.ev State.tickRoom (fun _ _ _ h => State.ev_tickRoom_other h) s hb
  have hticked : u.tickedEv room = s.tickedEv room := by
    have hreads := (hu ▸ State.tickRooms_work before : s.TickWork u).reads room
    rw [State.tickedEv, hev, hreads.1, hreads.2, State.tickedEv]
  refine ⟨?_, fun hunknown hwas => (State.tickRooms_work after).set _ ?_⟩
  · rw [foldl_local_not_mem State.ev State.tickRoom (fun _ _ _ h => State.ev_tickRoom_other h) _ ha,
      State.ev_tickRoom_same h, hticked]
  · rw [State.tickRoom_eq, hticked, hev, if_pos ⟨hunknown, hwas⟩]
    exact State.latch_raise_isSet (by omega) _

theorem exec_evidenceTick (h : s.atRest) (hl : s.loading = false) {u : State}
    (hu : u = allRooms.foldl State.tickRoom (s.takeDue .evidenceTick)) :
    exec .evidenceTick s = .next (u.hand (.tickReport u.reportEntries)).sent := by
  have hno : ¬(s.takeDue .evidenceTick).loading = true := by
    rw [State.takeDue_loading, hl]
    exact Bool.false_ne_true
  show execEvidenceTick s = _
  rw [execEvidenceTick, run_next h]
  simp only [if_neg hno, ← hu]

theorem State.reportEntries_length : s.reportEntries.length = 48 := by simp [State.reportEntries]

theorem State.reportEntries_getElem {r : Nat} (h : r < 48) :
    s.reportEntries[r]? = some { verdict := (s.ev r).verdict, vacantRun := (s.ev r).vacantRun } := by
  simp [State.reportEntries, State.ev, h]

/-! ## One record's tick -/

section

variable {e : Evidence} {c : RoomClass}

/-- A tick closes the period. -/
theorem Evidence.tick_closes (bound : Bool) :
    (e.tick bound c).sampleSeen = false ∧ (e.tick bound c).entryBump = false := by
  unfold Evidence.tick
  simp only
  generalize (if e.sampleSeen = true then 0 else min 3 (e.stale + 1)) = stale
  split
  · exact ⟨rfl, rfl⟩
  · split <;> exact ⟨rfl, rfl⟩

theorem Evidence.tick_unbound : e.tick false c = { e with
    verdict := .noSensor, value := 0, peak := 0, stale := 0, vacantRun := 0, sampleSeen := false
    entryBump := false } := rfl

theorem Evidence.tick_stale (hs : e.sampleSeen = false) (h : 2 ≤ e.stale) :
    e.tick true c = { e with stale := 3, verdict := .unknown, sampleSeen := false, entryBump := false } := by
  have hstale : (if e.sampleSeen = true then 0 else min 3 (e.stale + 1)) = 3 := by
    rw [hs, if_neg Bool.false_ne_true]
    omega
  simp only [Evidence.tick, Bool.not_true, Bool.false_eq_true, if_false, hstale, if_true]
  rfl

theorem Evidence.tick_fresh (h : e.sampleSeen = true ∨ e.stale < 2) : e.tick true c = { e with
    stale := if e.sampleSeen then 0 else e.stale + 1
    value := e.next c
    verdict := e.judge c (e.next c)
    vacantRun := if e.judge c (e.next c) = .vacant then min 255 (e.vacantRun + 1) else 0
    sampleSeen := false, entryBump := false } := by
  have hstale : (if e.sampleSeen = true then 0 else min 3 (e.stale + 1)) =
      if e.sampleSeen = true then 0 else e.stale + 1 := by
    split
    · rfl
    next hs =>
      have := h.resolve_left hs
      omega
  have hfresh : ¬(if e.sampleSeen = true then 0 else e.stale + 1) = 3 := by
    split
    · omega
    next hs =>
      have := h.resolve_left hs
      omega
  simp only [Evidence.tick, Bool.not_true, Bool.false_eq_true, if_false, hstale, if_neg hfresh]
  rfl

end

/-- Settles O45: each room's tick at its place in the run. -/
theorem evidenceTickComputesEveryRoom : Obligations.EvidenceTickComputesEveryRoom := by
  intro s hrest hl
  have hexec := exec_evidenceTick hrest hl rfl
  have hrooms {r : Nat} (hr : r < 48) := State.tickRooms_room (s := s.takeDue .evidenceTick) hr
  have hwork := (State.tickRooms_work (s := s.takeDue .evidenceTick) allRooms).work
  generalize allRooms.foldl State.tickRoom (s.takeDue .evidenceTick) = u at *
  refine ⟨u, u.reportEntries, hexec, by rw [hwork], State.reportEntries_length, fun r hr => ?_, ?_⟩
  · obtain ⟨hev, hlatch⟩ := hrooms hr
    have hticked : (s.takeDue .evidenceTick).tickedEv r = (s.ev r).tick (s.boundSensor r).isSome (s.classOf r) := rfl
    rw [hticked] at hev hlatch
    intro e c sum verdict x
    have hx : x = (s.ev r).tick (s.boundSensor r).isSome (s.classOf r) := hev
    refine ⟨State.reportEntries_getElem hr, by rw [hx, (Evidence.tick_closes _).1],
      by rw [hx, (Evidence.tick_closes _).2], fun hnone => ?_, fun hsome hs hstale => ?_, fun hsome hfresh => ?_⟩
    · rw [hx, hnone, Option.isSome_none, Evidence.tick_unbound]
      exact ⟨rfl, rfl, rfl, rfl, rfl⟩
    · have htick := Evidence.tick_stale (c := c) hs hstale
      rw [Option.isSome_iff_ne_none.2 hsome] at hx hlatch
      rw [htick] at hx hlatch
      rw [hx]
      exact ⟨rfl, rfl, rfl, rfl, rfl, hlatch rfl⟩
    · have htick := Evidence.tick_fresh (c := c) hfresh
      rw [Option.isSome_iff_ne_none.2 hsome, htick] at hx
      rw [hx]
      exact ⟨rfl, rfl, rfl, rfl, rfl⟩
  · rw [hwork]
    exact ⟨rfl, rfl, rfl, rfl, rfl, rfl⟩

/-! ## Samples and entry reports (R73 to R75) -/

theorem exec_sample (h : s.atRest) (src : FrameFrom) {level : Nat} (hl : level ≤ 255) {t : State}
    (ht : t = s.takeDue (.sample src level)) : exec (.sample src level) s = .next (State.sent
      (match s.frameRoom .roomSensor src with
       | some room => t.modEv room fun e =>
          { e with sampleSeen := true, peak := if e.sampleSeen then max e.peak level else level }
       | none => t)) := by
  subst ht
  show execSample src level s = _
  rw [execSample, run_next h, Nat.min_eq_right hl]
  rfl

theorem exec_entry (h : s.atRest) (src : FrameFrom) (isOpen : Bool) {t : State}
    (ht : t = s.takeDue (.entry src isOpen)) : exec (.entry src isOpen) s = .next (State.sent
      (match s.frameRoom .roomPanel src with
       | some room => t.modEv room fun e => { e with entryBump := true }
       | none => t)) := by
  subst ht
  show execEntry src isOpen s = _
  rw [execEntry, run_next h]
  rfl

section

variable {kind : DropKind} {src : FrameFrom}

/-- A frame handed over with its room applies to that room. -/
theorem State.frameRoom_bound {room : Nat} (h : src.room = some room) :
    s.frameRoom kind src = if room < 48 then some room else none := by
  rw [State.frameRoom, h]

/-- A frame of a NORMAL drop of the kind with a room applies to that room. -/
theorem State.frameRoom_drop {room : Nat} (h : src.room = none) (hk : (s.drop src.drop).kind = kind)
    (hm : (s.drop src.drop).mode = .normal) (hr : (s.drop src.drop).room = some room) :
    s.frameRoom kind src = some room := by
  rw [State.frameRoom, h]
  exact (if_pos ⟨hk, hm⟩).trans hr

theorem State.frameRoom_none (h : src.room = none) (hno : (s.drop src.drop).kind ≠ kind ∨
    (s.drop src.drop).mode ≠ .normal ∨ (s.drop src.drop).room = none) : s.frameRoom kind src = none := by
  rw [State.frameRoom, h]
  simp only
  split
  next hyes => exact hno.elim (fun h => absurd hyes.1 h) fun h => h.elim (fun h => absurd hyes.2 h) id
  next => rfl

end

/-- Settles O46: by the room that the frame applies to. -/
theorem samplesAndEntriesReachTheirRoom : Obligations.SamplesAndEntriesReachTheirRoom := by
  refine ⟨fun s src room level isOpen hrest hl hroom => ⟨fun hr => ?bound, fun hr => ?noRoom⟩,
    fun s drop level isOpen hrest hl => ⟨fun r hk hm hr => ?sample, fun hno => ?noSample, fun r hk hm hr => ?entry,
      fun hno => ?noEntry⟩⟩
  case bound =>
    rw [exec_sample hrest src hl rfl, exec_entry hrest src isOpen rfl, State.frameRoom_bound hroom,
      State.frameRoom_bound hroom, if_pos hr]
    exact ⟨rfl, rfl⟩
  case noRoom =>
    rw [exec_sample hrest src hl rfl, exec_entry hrest src isOpen rfl, State.frameRoom_bound hroom,
      State.frameRoom_bound hroom, if_neg (Nat.not_lt.2 hr)]
    exact ⟨rfl, rfl⟩
  case sample => rw [exec_sample hrest _ hl rfl, State.frameRoom_drop rfl hk hm hr]
  case noSample => rw [exec_sample hrest _ hl rfl, State.frameRoom_none rfl hno]
  case entry => rw [exec_entry hrest _ isOpen rfl, State.frameRoom_drop rfl hk hm hr]
  case noEntry => rw [exec_entry hrest _ isOpen rfl, State.frameRoom_none rfl hno]

/-! ## Tick reports (R65 to R68) -/

theorem exec_tickReport (h : s.atRest) (entries : List ReportEntry) : exec (.tickReport entries) s =
    .next (afterCatchUp (.tickReport entries) (.tickReport entries) s (fun t => t.takeReport entries)
      (s.takeDue (.tickReport entries))).sent := by
  show execTickReport entries s = _
  rw [execTickReport, run_next h, State.settled_of_atRest h]

/-- Every entry of a report of 48 rooms is a room's. -/
theorem zipIdx_rooms {entries : List ReportEntry} (h : entries.length = 48) :
    (entries.zipIdx.filter fun x => decide (x.2 < 48)) = entries.zipIdx := by
  refine List.filter_eq_self.2 fun x hx => decide_eq_true ?_
  have := (List.mem_zipIdx' hx).1
  omega

section

variable {room slot i : Nat} {e : ReportEntry} {r : Reservation} (hslot : s.curSlot = some slot)

theorem State.report_none (h : s.current room = none) :
    s.presenceCheckIn room e = s ∧ s.countOccupied room e = s ∧ s.autoEndRoom room e = s := by
  simp only [State.presenceCheckIn, State.countOccupied, State.autoEndRoom, h, and_self]

variable (h : s.current room = some (i, r))
include h

theorem State.countOccupied_current : s.countOccupied room e =
    if r.state = .inUse ∧ e.verdict = .occupied then
      s.modRes i fun r => { r with occupied := min (r.occupied + 1) 65535 }
    else s := by
  rw [State.countOccupied, h]
  rfl

include hslot

theorem State.presenceCheckIn_current : s.presenceCheckIn room e =
    if r.state = .due ∧ (s.classOf room).presence = true ∧ e.verdict = .occupied then
      s.changeRes i fun r =>
        { r with state := .inUse, checkIn := some { slot := slot, how := .presence }, dirty := true }
    else s := by
  rw [State.presenceCheckIn, h, hslot]

theorem State.autoEndRoom_current : s.autoEndRoom room e =
    if r.state = .inUse ∧ (s.classOf room).autoEnd ≠ 0 ∧ (s.classOf room).autoEnd ≤ e.vacantRun ∧
        (e.verdict = .vacant ∨ e.verdict = .occupied) then
      (s.changeRes i fun r =>
        { r with state := .ended, stop := min r.stop (max (slot + 1) (r.start + 1)), endReason := some .autoEnd
                 closedAt := some { day := s.clock.day, slot := slot }, dirty := true }).closeDone room
    else s := by
  rw [State.autoEndRoom, h, hslot]
  simp only [State.closedNow, hslot, Option.getD_some]

end

/-- Settles O47: by the catch-up, the clock, and each part on a room's current reservation. -/
theorem tickReportActsOnCurrentReservations : Obligations.TickReportActsOnCurrentReservations := by
  refine ⟨fun s entries hrest hcatch => ?waits, fun s entries hrest hcatch => ⟨fun hclock => ?unset,
    fun hclock hlen => ?set⟩, fun s room slot e hslot => ⟨State.report_none, fun i r hr => ?current⟩⟩
  case waits =>
    intro c
    rw [exec_tickReport hrest, afterCatchUp_waits ((catchUp_takeDue rfl).trans hcatch)]
  case unset =>
    have hclock' : ¬(s.takeDue (.tickReport entries)).clock.isSet = true := by
      rw [State.takeDue_clock, hclock]
      exact Bool.false_ne_true
    rw [exec_tickReport hrest, afterCatchUp_idle ((catchUp_takeDue rfl).trans hcatch), State.takeReport, if_neg hclock']
  case set =>
    have hclock' : (s.takeDue (.tickReport entries)).clock.isSet = true := hclock
    rw [exec_tickReport hrest, afterCatchUp_idle ((catchUp_takeDue rfl).trans hcatch), State.takeReport, if_pos hclock',
      zipIdx_rooms hlen]
    rfl
  case current =>
    rw [State.presenceCheckIn_current hslot hr, State.countOccupied_current hr, State.autoEndRoom_current hslot hr]
    refine ⟨fun h1 h2 h3 => if_pos ⟨h1, h2, h3⟩, fun hno => if_neg ?_, fun h1 h2 => if_pos ⟨h1, h2⟩,
      fun hno => if_neg ?_, fun h1 h2 h3 h4 => if_pos ⟨h1, h2, h3, h4⟩, fun hno => if_neg ?_⟩
    · rintro ⟨h1, h2, h3⟩
      rcases hno with h | h | h
      · exact h h1
      · rw [h2] at h; cases h
      · exact h h3
    · rintro ⟨h1, h2⟩
      exact hno.elim (fun h => h h1) fun h => h h2
    · rintro ⟨h1, h2, h3, h4⟩
      rcases hno with h | h | h | h | h
      · exact h h1
      · exact h2 h
      · omega
      · rw [h] at h4; exact h4.elim nofun nofun
      · rw [h] at h4; exact h4.elim nofun nofun

end Sys2Proof.Machine
end

section
/-! PROOFS. The Reservation Store's operations: what each makes of a record, of its room and of the rest (R8, R24 to R33). -/

namespace Sys2Proof.Machine

variable {s : State} {tag : Tag}

/-! ## A change of a record (R31, R159) -/

section

variable {i : Nat} {r : Reservation} (f : Reservation → Reservation)

theorem State.changeRes_none (h : s.res i = none) : s.changeRes i f = s := by
  rw [State.changeRes, h]

theorem State.changeRes_some (h : s.res i = some r) : s.changeRes i f =
    if r.day = .today then (s.setRes i (some { f r with version := r.version + 1 })).markRoom r.room
    else s.setRes i (some { f r with version := r.version + 1 }) := by
  rw [State.changeRes, h]

/-- A change of a record reaches the pool and the displays alone. -/
theorem State.changeRes_frame : s.changeRes i f = { s with
    pool := (s.changeRes i f).pool, drops := (s.changeRes i f).drops } := by
  cases h : s.res i with
  | none => rw [State.changeRes_none f h]
  | some r =>
    rw [State.changeRes_some f h]
    split <;> rfl

theorem State.res_changeRes_same (h : s.res i = some r) :
    (s.changeRes i f).res i = some { f r with version := r.version + 1 } := by
  have hset := State.res_setRes_same (s := s) (State.res_index h) (some { f r with version := r.version + 1 })
  rw [State.changeRes_some f h]
  split <;> exact hset

theorem State.res_changeRes_other {j : Nat} (hj : j ≠ i) : (s.changeRes i f).res j = s.res j := by
  cases h : s.res i with
  | none => rw [State.changeRes_none f h]
  | some r =>
    rw [State.changeRes_some f h]
    split <;> exact State.res_setRes_other hj _

/-- A record's displays after a change of it: those of its room, when it is in a TODAY list. -/
theorem State.drop_changeRes (h : s.res i = some r) (c : DropCode) : (s.changeRes i f).drop c =
    if r.day = .today ∧ (s.drop c).room = some r.room then (s.drop c).marked else s.drop c := by
  rw [State.changeRes_some f h]
  by_cases hd : r.day = .today
  · rw [if_pos hd, State.drop_markRoom]
    simp only [hd, true_and]
    rfl
  · rw [if_neg hd, if_neg fun h => hd h.1]
    rfl

end

/-! ## CLOSE_DONE (R8) -/

section

variable {room : Nat}

theorem State.closeDone_closing (h : (s.room room).service = .closing) :
    s.closeDone room = (s.setService room .closed).raise (72 + room) .closeDone := if_pos h

theorem State.closeDone_other (h : (s.room room).service ≠ .closing) : s.closeDone room = s := if_neg h

/-- A CLOSE_DONE reaches the rooms, the displays and the Event Unit. -/
theorem State.closeDone_frame : s.closeDone room = { s with
    rooms := (s.closeDone room).rooms, drops := (s.closeDone room).drops, riser := (s.closeDone room).riser
    latches := (s.closeDone room).latches, unsent := (s.closeDone room).unsent
    flushCount := (s.closeDone room).flushCount, discardCount := (s.closeDone room).discardCount } := by
  unfold State.closeDone
  split
  · rw [State.raise_frame]; rfl
  · rfl

theorem State.res_closeDone (i : Nat) : (s.closeDone room).res i = s.res i := by rw [State.closeDone_frame]; rfl

theorem State.room_raise (i : Nat) (c : Cause) (j : Nat) : (s.raise i c).room j = s.room j := by
  rw [State.raise_frame]; rfl

theorem State.room_markRoom (r j : Nat) : (s.markRoom r).room j = s.room j := rfl

/-- A CLOSE_DONE changes one room's service state alone. -/
theorem State.room_closeDone (j : Nat) : (s.closeDone room).room j =
    if j = room ∧ (s.room j).service = .closing then { s.room j with service := .closed } else s.room j := by
  by_cases hc : (s.room room).service = .closing
  · rw [State.closeDone_closing hc, State.room_raise, State.setService, State.room_markRoom]
    by_cases hj : j = room
    · subst hj
      rw [if_pos ⟨rfl, hc⟩]
      by_cases hlt : j < 48
      · rw [State.room_modRoom_same hlt]
      · exact absurd hc (by simp [State.room, hlt, RoomEntry.reset])
    · rw [if_neg fun h => hj h.1, State.room_modRoom_other hj]
  · rw [State.closeDone_other hc, if_neg]
    rintro ⟨rfl, h⟩
    exact hc h

end

/-! ## The end of a record (R8, R33, R63) -/

/-- A record as it becomes terminal. -/
def Reservation.finished (r : Reservation) (st : ResState) (why : EndReason) (closed : ClosedAt) (dirty : Bool) :
    Reservation :=
  { r with state := st, endReason := some why, closedAt := some closed, dirty := r.dirty || dirty }

section

variable {i : Nat} {r : Reservation} (st : ResState) (why : EndReason) (closed : ClosedAt) (dirty : Bool)

/-- The state in which a record has become terminal, before its notice. -/
def State.ended (s : State) (i : Nat) (r : Reservation) (st : ResState) (why : EndReason) (closed : ClosedAt)
    (dirty : Bool) : State :=
  if r.state = .inUse then (s.changeRes i fun r => r.finished st why closed dirty).closeDone r.room
  else s.changeRes i fun r => r.finished st why closed dirty

theorem State.finish_none (h : s.res i = none) (slot : Option Nat) : s.finish i st why closed dirty slot = s := by
  rw [State.finish, h]

theorem State.finish_some (h : s.res i = some r) (slot : Option Nat) : s.finish i st why closed dirty slot =
    if (st = .released ∨ st = .cancelled) ∧ r.orders ≠ [] then
      match slot with
      | some _ => (s.ended i r st why closed dirty).handNotice (.withdrawNotice i slot)
      | none => (s.ended i r st why closed dirty).hand (.withdrawNotice i none)
    else s.ended i r st why closed dirty := by
  rw [State.finish, h] <;> rfl

/-- What the end of a record reaches: the pool, rooms, displays and the Event Unit. -/
theorem State.ended_frame : s.ended i r st why closed dirty = { s with
    pool := (s.ended i r st why closed dirty).pool, rooms := (s.ended i r st why closed dirty).rooms
    drops := (s.ended i r st why closed dirty).drops, riser := (s.ended i r st why closed dirty).riser
    latches := (s.ended i r st why closed dirty).latches, unsent := (s.ended i r st why closed dirty).unsent
    flushCount := (s.ended i r st why closed dirty).flushCount
    discardCount := (s.ended i r st why closed dirty).discardCount } := by
  unfold State.ended
  split
  · rw [State.closeDone_frame, State.changeRes_frame]
  · rw [State.changeRes_frame]

theorem State.res_ended_same (h : s.res i = some r) :
    (s.ended i r st why closed dirty).res i =
      some { r.finished st why closed dirty with version := r.version + 1 } := by
  unfold State.ended
  split
  · rw [State.res_closeDone, State.res_changeRes_same _ h]
  · rw [State.res_changeRes_same _ h]

theorem State.res_ended_other {j : Nat} (hj : j ≠ i) : (s.ended i r st why closed dirty).res j = s.res j := by
  unfold State.ended
  split
  · rw [State.res_closeDone, State.res_changeRes_other _ hj]
  · rw [State.res_changeRes_other _ hj]

/-- The end of a record, with its notice at its place among the work that is due. -/
theorem State.finish_due (h : s.res i = some r) (slot : Option Nat) :
    s.finish i st why closed dirty slot = { s.ended i r st why closed dirty with
      due := if (st = .released ∨ st = .cancelled) ∧ r.orders ≠ [] then
          (match slot with
            | some _ => insertBeforeBoundary (.withdrawNotice i slot) s.due
            | none => s.due ++ [.withdrawNotice i none])
        else s.due } := by
  have hdue : (s.ended i r st why closed dirty).due = s.due := by rw [State.ended_frame]
  rw [State.finish_some st why closed dirty h slot]
  split
  · cases slot with
    | none => rw [State.hand, hdue]
    | some j => rw [State.handNotice, hdue]
  · rw [← hdue]

theorem State.res_finish_same (h : s.res i = some r) (slot : Option Nat) :
    (s.finish i st why closed dirty slot).res i =
      some { r.finished st why closed dirty with version := r.version + 1 } := by
  rw [State.finish_due st why closed dirty h slot]
  exact State.res_ended_same st why closed dirty h

theorem State.res_finish_other (slot : Option Nat) {j : Nat} (hj : j ≠ i) :
    (s.finish i st why closed dirty slot).res j = s.res j := by
  cases h : s.res i with
  | none => rw [State.finish_none st why closed dirty h]
  | some r =>
    rw [State.finish_due st why closed dirty h slot]
    exact State.res_ended_other st why closed dirty hj

/-- The tables that the end of a record leaves. -/
theorem State.finish_keeps (slot : Option Nat) :
    let t := s.finish i st why closed dirty slot
    t.orders = s.orders ∧ t.pantries = s.pantries ∧ t.clock = s.clock ∧ t.evidence = s.evidence ∧ t.lines = s.lines ∧
      t.classes = s.classes := by
  cases h : s.res i with
  | none => rw [State.finish_none st why closed dirty h]; exact ⟨rfl, rfl, rfl, rfl, rfl, rfl⟩
  | some r =>
    rw [State.finish_due st why closed dirty h slot, State.ended_frame]
    exact ⟨rfl, rfl, rfl, rfl, rfl, rfl⟩

end

/-! ## A record freed (R30) -/

section

variable {i : Nat} {r : Reservation}

theorem State.freeRecord_some (h : s.res i = some r) :
    s.freeRecord i = ((s.unlist i r).freeOrders r.orders).setRes i none := by
  rw [State.freeRecord, h]

theorem State.freeRecord_none (h : s.res i = none) : s.freeRecord i = s := by
  rw [State.freeRecord, h]

theorem State.unlist_frame : s.unlist i r = { s with rooms := (s.unlist i r).rooms, drops := (s.unlist i r).drops } := by
  unfold State.unlist
  split <;> rfl

theorem State.res_unlist (j : Nat) : (s.unlist i r).res j = s.res j := by rw [State.unlist_frame]; rfl

theorem State.room_unlist (j : Nat) : (s.unlist i r).room j =
    (s.modList r.room r.day fun l => l.filter fun k => decide (k ≠ i)).room j := by
  unfold State.unlist
  split <;> rfl

theorem State.dayList_modList_same {room : Nat} (h : room < 48) {day : Day} (f : List Nat → List Nat)
    (hf : day = .past → f [] = []) : (s.modList room day f).dayList room day = f (s.dayList room day) := by
  unfold State.modList State.dayList
  rw [State.room_modRoom_same h]
  cases day with
  | past => exact (hf rfl).symm
  | today => rfl
  | next => rfl

theorem State.room_modList_other {room j : Nat} (h : j ≠ room) (day : Day) (f : List Nat → List Nat) :
    (s.modList room day f).room j = s.room j := State.room_modRoom_other h _

theorem State.res_freeOrders (ids : List OrderId) (j : Nat) : (s.freeOrders ids).res j = s.res j := rfl

theorem State.res_freeRecord_same : (s.freeRecord i).res i = none := by
  cases h : s.res i with
  | none => rw [State.freeRecord_none h, h]
  | some r => rw [State.freeRecord_some h, State.res_setRes_same (State.res_index h)]

theorem State.res_freeRecord_other {j : Nat} (hj : j ≠ i) : (s.freeRecord i).res j = s.res j := by
  cases h : s.res i with
  | none => rw [State.freeRecord_none h]
  | some r => rw [State.freeRecord_some h, State.res_setRes_other hj, State.res_freeOrders, State.res_unlist]

theorem State.order_freeOrders (ids : List OrderId) (id : OrderId) :
    (s.freeOrders ids).order id = if id ∈ ids then none else s.order id := by
  unfold State.order State.freeOrders
  rw [List.find?_filter]
  by_cases h : id ∈ ids
  · rw [if_pos h, List.find?_eq_none]
    simp only [Bool.and_eq_true, Bool.not_eq_true', decide_eq_true_eq, not_and]
    rintro o - hno rfl
    exact absurd (List.contains_iff_mem.2 h) (by rw [hno]; exact Bool.false_ne_true)
  · rw [if_neg h]
    refine List.find?_congr fun o ho => ?_
    rw [Bool.eq_iff_iff]
    simp only [Bool.and_eq_true, Bool.not_eq_true', decide_eq_true_eq, and_iff_right_iff_imp]
    rintro rfl
    exact Bool.eq_false_iff.2 fun hc => h (List.contains_iff_mem.1 hc)

/-- What a freeing reaches: the pool, the rooms, the displays, the orders and the replay lists. -/
theorem State.freeRecord_frame : s.freeRecord i = { s with
    pool := (s.freeRecord i).pool, rooms := (s.freeRecord i).rooms, drops := (s.freeRecord i).drops
    orders := (s.freeRecord i).orders, pantries := (s.freeRecord i).pantries } := by
  cases h : s.res i with
  | none => rw [State.freeRecord_none h]
  | some r =>
    rw [State.freeRecord_some h, State.unlist_frame]
    rfl

theorem State.drop_unlist (c : DropCode) : (s.unlist i r).drop c =
    if r.day = .today ∧ (s.drop c).room = some r.room then (s.drop c).marked else s.drop c := by
  unfold State.unlist
  by_cases hd : r.day = .today
  · simp only [if_pos hd]
    rw [State.drop_markRoom]
    simp only [hd, true_and]
    rfl
  · simp only [if_neg hd]
    rw [if_neg fun h => hd h.1]
    rfl

end

/-! ## A record made (R26) -/

section

variable {p : Place} {x : Reservation}

/-- The state in which the record to be reclaimed has been freed. -/
def State.reclaimed (s : State) (p : Place) : State :=
  match p.reclaim with
  | some i => s.freeRecord i
  | none => s

theorem State.create_eq : s.create p x =
    if x.day = .today then
      (((s.reclaimed p).enterList x.room x.day p.index x.start).setRes p.index (some x)).markRoom x.room
    else ((s.reclaimed p).enterList x.room x.day p.index x.start).setRes p.index (some x) := rfl

theorem State.res_enterList (room : Nat) (day : Day) (i start j : Nat) :
    (s.enterList room day i start).res j = s.res j := rfl

theorem State.res_create_same (h : p.index < 768) : (s.create p x).res p.index = some x := by
  rw [State.create_eq]
  split <;> exact State.res_setRes_same (s := (s.reclaimed p).enterList x.room x.day p.index x.start) h _

theorem State.res_reclaimed {j : Nat} (h : p.reclaim ≠ some j) : (s.reclaimed p).res j = s.res j := by
  unfold State.reclaimed
  cases hp : p.reclaim with
  | none => rfl
  | some i => exact State.res_freeRecord_other fun e => h (by rw [hp, e])

theorem State.res_create_other {j : Nat} (hj : j ≠ p.index) (hr : p.reclaim ≠ some j) :
    (s.create p x).res j = s.res j := by
  have hset := (State.res_setRes_other (s := (s.reclaimed p).enterList x.room x.day p.index x.start) hj (some x)).trans
    ((State.res_enterList ..).trans (State.res_reclaimed hr))
  rw [State.create_eq]
  split <;> exact hset

theorem State.room_create (j : Nat) :
    (s.create p x).room j = ((s.reclaimed p).enterList x.room x.day p.index x.start).room j := by
  rw [State.create_eq]
  split <;> rfl

/-- The new record stands in its day list. -/
theorem State.mem_create {day : Day} (hroom : x.room < 48) (hday : x.day = day) (hd : day ≠ .past) :
    p.index ∈ (s.create p x).dayList x.room day := by
  subst hday
  have hlist : (s.create p x).dayList x.room x.day =
      ((s.reclaimed p).enterList x.room x.day p.index x.start).dayList x.room x.day := by
    simp only [State.dayList, State.room_create]
  rw [hlist, State.enterList, State.dayList_modList_same hroom _ fun h => absurd h hd]
  exact (mem_insertByKey ..).2 (.inl rfl)

theorem State.reclaimed_frame : s.reclaimed p = { s with
    pool := (s.reclaimed p).pool, rooms := (s.reclaimed p).rooms, drops := (s.reclaimed p).drops
    orders := (s.reclaimed p).orders, pantries := (s.reclaimed p).pantries } := by
  unfold State.reclaimed
  split
  · exact State.freeRecord_frame
  · rfl

theorem State.create_frame : s.create p x = { s with
    pool := (s.create p x).pool, rooms := (s.create p x).rooms, drops := (s.create p x).drops
    orders := (s.create p x).orders, pantries := (s.create p x).pantries } := by
  rw [State.create_eq]
  split <;> rw [State.reclaimed_frame] <;> rfl

end

end Sys2Proof.Machine
end

section
/-! PROOFS. ROOM_CLOSE and ROOM_OPEN (R7 to R9), and what a request of the Booking Engine makes of a catch-up (R18). -/

namespace Sys2Proof.Machine

variable {s : State} {tag : Tag}

/-! ## Managed requests that a catch-up holds back (R18) -/

section

variable {c : Instr} {k : MsgKind} {form : Bool} {act : State → State} (h : s.manages c k tag)
  (hexec : exec c s = run c s (manage k tag c s.settled form (afterCatchUp c c s.settled act))) (hform : form = true)
  (hc : waitsOut c = true)
include h hexec hform hc

theorem exec_catchUp_waits (hcatch : s.catchUp = true) :
    exec c s = .next { s.taken c k tag with due := s.holdBack c c }.sent := by
  rw [exec_manages h hexec hform, afterCatchUp_waits ((catchUp_taken hc).trans hcatch), State.settled_of_atRest h.1.1]

theorem exec_catchUp_runs (hcatch : s.catchUp = false) : exec c s = .next (act (s.taken c k tag)).sent := by
  rw [exec_manages h hexec hform, afterCatchUp_idle ((catchUp_taken hc).trans hcatch)]

end

/-! ## What ROOM_CLOSE makes of a room (R7) -/

section

variable {room : Nat}

theorem State.closeRoom_left (h : (s.room room).service ≠ .opened) : s.closeRoom room = s := if_pos h

theorem State.closeRoom_empty (h : (s.room room).service = .opened) (hcur : s.current room = none) :
    s.closeRoom room = (s.setService room .closed).raise (72 + room) .closeDone := by
  rw [State.closeRoom, if_neg (not_not.2 h), hcur]
  rfl

theorem State.closeRoom_due {i : Nat} {r : Reservation} (h : (s.room room).service = .opened)
    (hcur : s.current room = some (i, r)) (hr : r.state = .due) :
    s.closeRoom room = ((s.finish i .cancelled .roomClosed s.closedNow true none).setService room .closed).raise
      (72 + room) .closeDone := by
  rw [State.closeRoom, if_neg (not_not.2 h), hcur]
  exact if_pos hr

theorem State.closeRoom_inUse {i : Nat} {r : Reservation} (h : (s.room room).service = .opened)
    (hcur : s.current room = some (i, r)) (hr : r.state = .inUse) :
    s.closeRoom room = s.setService room .closing := by
  rw [State.closeRoom, if_neg (not_not.2 h), hcur]
  exact if_neg (by simp [hr])

end

/-- Settles O40: each request by the room's service state and its current reservation. -/
theorem roomServiceControls : Obligations.RoomServiceControls := by
  intro s tag room h hr close openIt does t set
  have hm : ∀ {c}, s.inTurn c → s.manages c .control tag := fun ht => ⟨h, hr, ht⟩
  have hclose : 47 ≥ room → s.catchUp = false → s.inTurn close → exec close s =
      .next ((t.closeRoom room).reply .control tag .ok .none).sent := by
    intro hroom hcatch ht
    rw [exec_catchUp_runs (c := close) (hm ht) rfl rfl rfl hcatch, decide_eq_true hroom, inRange_good]
  have hopen : 47 ≥ room → s.catchUp = false → s.inTurn openIt → exec openIt s =
      .next ((if ((s.taken openIt .control tag).room room).service = .opened then s.taken openIt .control tag
        else (s.taken openIt .control tag).setService room .opened).reply .control tag .ok .none).sent := by
    intro hroom hcatch ht
    rw [exec_catchUp_runs (c := openIt) (hm ht) rfl rfl rfl hcatch, decide_eq_true hroom, inRange_good]
  have hroomT : t.room room = s.room room := State.taken_room ..
  have hcurT : t.current room = s.current room := State.taken_current ..
  refine ⟨fun hroom hcatch c hc ht => ?range, fun hcatch c hc ht => ?waits, fun hroom hcatch =>
    ⟨fun hs ht => ?left, fun hs hcur ht => ?empty, fun i r hs hcur hst ht => ?due, fun i r hs hcur hst ht => ?inUse,
      fun hs ht => ?stays, fun hs ht => ?opens⟩⟩
  case range =>
    have hno : decide (room ≤ 47) = false := decide_eq_false (by omega)
    rcases hc with rfl | rfl <;>
      rw [exec_catchUp_runs (hm ht) rfl rfl rfl hcatch, hno, inRange_bad, State.replies]
  case waits => rcases hc with rfl | rfl <;> exact exec_catchUp_waits (hm ht) rfl rfl rfl hcatch
  case left => rw [hclose hroom hcatch ht, State.closeRoom_left (by rw [hroomT]; exact hs), State.replies]
  case empty => rw [hclose hroom hcatch ht, State.closeRoom_empty (by rw [hroomT, hs]) (hcurT.trans hcur)]; rfl
  case due =>
    rw [hclose hroom hcatch ht, State.closeRoom_due (by rw [hroomT, hs]) (hcurT.trans hcur) hst, State.taken_closedNow]
    rfl
  case inUse => rw [hclose hroom hcatch ht, State.closeRoom_inUse (by rw [hroomT, hs]) (hcurT.trans hcur) hst]; rfl
  case stays => rw [hopen hroom hcatch ht, if_pos (by rw [State.taken_room, hs]), State.replies]
  case opens => rw [hopen hroom hcatch ht, if_neg (by rw [State.taken_room]; exact hs)]; rfl

end Sys2Proof.Machine
end

section
/-! PROOFS. Withdraw notices (R116) and order outcome notices (R64). -/

namespace Sys2Proof.Machine

variable {s : State}

theorem State.takeDue_res (c : Instr) (i : Nat) : (s.takeDue c).res i = s.res i := rfl

section

variable {record : Nat}

/-- A withdraw notice of a RELEASED or CANCELLED record acts on its orders. -/
theorem exec_withdrawNotice_acts (h : s.atRest) (slot : Option Nat) {r : Reservation} (hr : s.res record = some r)
    (hst : r.state = .released ∨ r.state = .cancelled) : exec (.withdrawNotice record slot) s =
      .next (r.orders.foldl (State.withdrawOrder (slot.getD (s.curSlot.getD 0)))
        (s.takeDue (.withdrawNotice record slot))).sent := by
  show execWithdrawNotice record slot s = _
  rw [execWithdrawNotice, run_next h]
  simp only [State.takeDue_res, hr, if_pos hst]
  rfl

/-- One of any other record has no effect. -/
theorem exec_withdrawNotice_idle (h : s.atRest) (slot : Option Nat)
    (hr : ∀ r, s.res record = some r → r.state ≠ .released ∧ r.state ≠ .cancelled) :
    exec (.withdrawNotice record slot) s = .next (s.takeDue (.withdrawNotice record slot)).sent := by
  show execWithdrawNotice record slot s = _
  rw [execWithdrawNotice, run_next h]
  cases hres : s.res record with
  | none => simp only [State.takeDue_res, hres]
  | some r => simp only [State.takeDue_res, hres, if_neg (not_or.2 (hr r hres))]

/-- An outcome notice of an order that its record lists sets the catering fault. -/
theorem exec_orderOutcomeNotice_acts (h : s.atRest) {order : OrderId} {r : Reservation} (hr : s.res record = some r)
    (ho : order ∈ r.orders) : exec (.orderOutcomeNotice record order) s =
      .next ((s.takeDue (.orderOutcomeNotice record order)).changeRes record fun r =>
        { r with cateringFault := true, dirty := true }).sent := by
  show execOrderOutcomeNotice record order s = _
  rw [execOrderOutcomeNotice, run_next h]
  simp only [State.takeDue_res, hr, if_pos (List.contains_iff_mem.2 ho)]

/-- One of an order that no record lists is discarded. -/
theorem exec_orderOutcomeNotice_idle (h : s.atRest) {order : OrderId}
    (hr : ∀ r, s.res record = some r → order ∉ r.orders) :
    exec (.orderOutcomeNotice record order) s = .next (s.takeDue (.orderOutcomeNotice record order)).sent := by
  show execOrderOutcomeNotice record order s = _
  rw [execOrderOutcomeNotice, run_next h]
  cases hres : s.res record with
  | none => simp only [State.takeDue_res, hres]
  | some r => simp only [State.takeDue_res, hres, if_neg (mt List.contains_iff_mem.1 (hr r hres))]

end

/-! ## One order of a withdraw notice (R116) -/

section

variable {id : OrderId} {o : Order} {j : Nat}

theorem State.withdrawOrder_none (h : s.order id = none) : State.withdrawOrder j s id = s := by
  rw [State.withdrawOrder, h]

variable (h : s.order id = some o)
include h

theorem State.withdrawOrder_held (hst : o.state = .held) :
    State.withdrawOrder j s id = s.modOrder id fun o => { o with state := .cancelled } := by
  simp only [State.withdrawOrder, h, hst]

theorem State.withdrawOrder_queued (hst : o.state = .queued) : State.withdrawOrder j s id =
    (s.modPantry o.pantry fun p => { p with dispatch := p.dispatch.filter fun i => decide (i ≠ id) }).modOrder id fun o =>
      { o with state := .cancelled } := by
  rw [← order_id h]
  simp only [State.withdrawOrder, order_id h, h, hst, State.leaveDispatch]

/-- A SENT or ACCEPTED order before its cutoff has its CANCEL queued, but for one of a PAST record. -/
theorem State.withdrawOrder_early (hst : o.state = .sent ∨ o.state = .accepted) (hj : j < o.cutoff) :
    State.withdrawOrder j s id = if s.orderPast o then s
      else (s.modOrder id fun o => { o with state := .cancelPending, cancelPending := true }).modPantry o.pantry fun p =>
        { p with cancels := p.cancels ++ [id] } := by
  rcases hst with hst | hst <;> simp only [State.withdrawOrder, h, hst, if_pos hj]

theorem State.withdrawOrder_late (hst : o.state = .sent ∨ o.state = .accepted) (hj : o.cutoff ≤ j) :
    State.withdrawOrder j s id = s.modOrder id fun o => { o with state := .wasted } := by
  rcases hst with hst | hst <;> simp only [State.withdrawOrder, h, hst, if_neg (Nat.not_lt.2 hj)]

theorem State.withdrawOrder_delivered (hst : o.state = .delivered) :
    State.withdrawOrder j s id = s.modOrder id fun o => { o with state := .wasted } := by
  simp only [State.withdrawOrder, h, hst]

theorem State.withdrawOrder_settled (hst : o.state = .cancelPending ∨ o.state.settled = true) (hd : o.state ≠ .delivered) :
    State.withdrawOrder j s id = s := by
  simp only [State.withdrawOrder, h]
  cases ho : o.state <;> simp_all [OrderState.settled]

end

/-- Settles O48: the notices by their record, and each order of a withdraw notice by its state. -/
theorem noticesActOnOrdersAndRecords : Obligations.NoticesActOnOrdersAndRecords := by
  intro s
  refine ⟨fun record slot h => ⟨fun r hr hst => exec_withdrawNotice_acts h slot hr hst,
    fun hr => exec_withdrawNotice_idle h slot hr⟩, fun j id => ⟨State.withdrawOrder_none, fun o ho => ?order⟩,
    fun record order h => ⟨fun r hr hm => exec_orderOutcomeNotice_acts h hr hm, exec_orderOutcomeNotice_idle h⟩⟩
  refine ⟨State.withdrawOrder_held ho, State.withdrawOrder_queued ho, fun hst hj hp => ?_, fun hst hj hp => ?_,
    State.withdrawOrder_late ho, State.withdrawOrder_delivered ho, State.withdrawOrder_settled ho⟩
  · rw [State.withdrawOrder_early ho hst hj, if_pos hp]
  · rw [State.withdrawOrder_early ho hst hj, if_neg (by rw [hp]; exact Bool.false_ne_true)]

end Sys2Proof.Machine
end

section
/-! PROOFS. Panel requests: what each is judged as, and how its answer is placed (R52 to R56). -/

namespace Sys2Proof.Machine

variable {s : State}

/-! ## A panel request taken (R52) -/

/-- The frame's room: the one bound as it arrived, else that of a NORMAL room panel. -/
theorem State.frameRoom_panel {src : FrameFrom} {room : Nat}
    (h : (src.room = none ∧ (s.drop src.drop).kind = .roomPanel ∧ (s.drop src.drop).mode = .normal ∧
      (s.drop src.drop).room = some room) ∨ (src.room = some room ∧ room < 48)) :
    s.frameRoom .roomPanel src = some room := by
  rcases h with ⟨hsrc, hk, hm, hr⟩ | ⟨hsrc, hlt⟩
  · exact State.frameRoom_drop hsrc hk hm hr
  · rw [State.frameRoom_bound hsrc, if_pos hlt]

/-- A frame with no bound panel applies to no room. -/
theorem State.frameRoom_noPanel {src : FrameFrom}
    (h : (src.room = none ∧ ((s.drop src.drop).kind ≠ .roomPanel ∨ (s.drop src.drop).mode ≠ .normal ∨
      (s.drop src.drop).room = none)) ∨ (∃ r, src.room = some r ∧ 48 ≤ r)) : s.frameRoom .roomPanel src = none := by
  rcases h with ⟨hsrc, hno⟩ | ⟨r, hsrc, hle⟩
  · exact State.frameRoom_none hsrc hno
  · rw [State.frameRoom_bound hsrc, if_neg (Nat.not_lt.2 hle)]

section

variable {c : Instr} {src : FrameFrom} {again : Nat → Instr} {q : PanelRequest} {judge : State → Nat → Judged}
  (h : s.atRest) (hexec : exec c s = run c s (s.settled.panelRequest c src again q judge))
include h hexec

theorem exec_panelRequest_discarded (hroom : s.frameRoom .roomPanel src = none) :
    exec c s = .next (s.takeDue c).sent := by
  rw [hexec, run_next h, State.settled_of_atRest h, State.panelRequest,
    show (s.takeDue c).frameRoom .roomPanel src = none from hroom]

theorem exec_panelRequest_waits {room : Nat} (hc : waitsOut c = true) (hcatch : s.catchUp = true)
    (hroom : s.frameRoom .roomPanel src = some room) :
    exec c s = .next { s with due := s.holdBack c (again room) }.sent := by
  rw [hexec, run_next h, State.settled_of_atRest h, State.panelRequest,
    show (s.takeDue c).frameRoom .roomPanel src = some room from hroom]
  simp only [afterCatchUp_waits ((catchUp_takeDue hc).trans hcatch)]
  rfl

theorem exec_panelRequest_judged {room : Nat} (hc : waitsOut c = true) (hcatch : s.catchUp = false)
    (hroom : s.frameRoom .roomPanel src = some room) {u : State} {x : AnswerResult}
    (hj : judge (s.takeDue c) room = (u, x)) :
    exec c s = .next (u.placeAnswer src.drop { request := q, result := x }).sent := by
  rw [hexec, run_next h, State.settled_of_atRest h, State.panelRequest,
    show (s.takeDue c).frameRoom .roomPanel src = some room from hroom]
  simp only [afterCatchUp_idle ((catchUp_takeDue hc).trans hcatch), hj]

end

theorem exec_keyCheckIn (src : FrameFrom) : exec (.keyCheckIn src) s = run (.keyCheckIn src) s
    (s.settled.panelRequest (.keyCheckIn src) src (fun room => .keyCheckIn { src with room := some room }) .checkIn
      State.judgeCheckIn) := rfl

theorem exec_keyEnd (src : FrameFrom) : exec (.keyEnd src) s = run (.keyEnd src) s
    (s.settled.panelRequest (.keyEnd src) src (fun room => .keyEnd { src with room := some room }) .finish
      State.judgeEnd) := rfl

theorem exec_keyExtend (src : FrameFrom) : exec (.keyExtend src) s = run (.keyExtend src) s
    (s.settled.panelRequest (.keyExtend src) src (fun room => .keyExtend { src with room := some room }) .extend
      State.judgeExtend) := rfl

theorem State.curSlot_of_unset (h : s.clock.isSet = false) : s.curSlot = none := by
  rw [State.curSlot, h]; rfl

theorem State.curSlot_of_set (h : s.clock.isSet = true) : ∃ now, s.curSlot = some now := by
  rw [State.curSlot, h]; exact ⟨_, rfl⟩

theorem State.shut_of_not_opened {room : Nat} (h : (s.room room).service ≠ .opened) : s.shut room = true :=
  decide_eq_true h

theorem State.not_shut_of_opened {room : Nat} (h : (s.room room).service = .opened) : ¬s.shut room = true := by
  simp [State.shut, h]

/-! ## KEY CHECK_IN (R53) -/

section

variable {room : Nat}

theorem State.judgeCheckIn_noTime (h : s.curSlot = none) : s.judgeCheckIn room = s.refuse .noTime := by
  rw [State.judgeCheckIn, h]

variable {now : Nat} (hnow : s.curSlot = some now)
include hnow

theorem State.judgeCheckIn_shut (h : (s.room room).service ≠ .opened) :
    s.judgeCheckIn room = s.refuse .roomClosed := by
  rw [State.judgeCheckIn, hnow]
  exact if_pos (State.shut_of_not_opened h)

variable (hopen : (s.room room).service = .opened)
include hopen

/-- The TODAY list's first meeting of the next slot. -/
def nextMeeting (now : Nat) (x : Nat × Reservation) : Bool := x.2.state = .booked && x.2.start = now + 1

theorem State.judgeCheckIn_current {i : Nat} {r : Reservation} (h : s.current room = some (i, r)) :
    s.judgeCheckIn room = if r.state = .due then
        (s.changeRes i fun r => { r with state := .inUse, checkIn := some { slot := now, how := .key }, dirty := true },
          .granted r.start r.stop)
      else (s, .granted r.start r.stop) := by
  rw [State.judgeCheckIn, hnow]
  simp only [if_neg (State.not_shut_of_opened hopen), h]

variable (hcur : s.current room = none)
include hcur

theorem State.judgeCheckIn_early {i : Nat} {r : Reservation}
    (h : (s.todayRecords room).find? (nextMeeting now) = some (i, r)) :
    s.judgeCheckIn room = (if r.early then s else s.changeRes i fun r => { r with early := true, dirty := true },
      .granted r.start r.stop) := by
  have h' : (s.todayRecords room).find? (fun x => x.2.state = .booked && x.2.start = now + 1) = some (i, r) := h
  rw [State.judgeCheckIn, hnow]
  simp only [if_neg (State.not_shut_of_opened hopen), hcur, h']

theorem State.judgeCheckIn_none (h : (s.todayRecords room).find? (nextMeeting now) = none) :
    s.judgeCheckIn room =
      if (s.todayRecords room).any fun x => x.2.state = .released && decide (now < x.2.stop) then s.refuse .tooLate
      else if (s.todayRecords room).any fun x => x.2.state = .booked && decide (now + 1 < x.2.start) then
        s.refuse .notYet
      else s.refuse .noMeeting := by
  have h' : (s.todayRecords room).find? (fun x => x.2.state = .booked && x.2.start = now + 1) = none := h
  rw [State.judgeCheckIn, hnow]
  simp only [if_neg (State.not_shut_of_opened hopen), hcur, h']

end

/-! ## KEY END (R55) -/

section

variable {room : Nat}

theorem State.judgeEnd_noTime (h : s.curSlot = none) : s.judgeEnd room = s.refuse .noTime := by
  rw [State.judgeEnd, h]

variable {now : Nat} (hnow : s.curSlot = some now)
include hnow

theorem State.judgeEnd_empty (hcur : s.current room = none) : s.judgeEnd room = s.refuse .noMeeting := by
  rw [State.judgeEnd, hnow]
  simp only [hcur]

variable {i : Nat} {r : Reservation} (hcur : s.current room = some (i, r))
include hcur

theorem State.judgeEnd_due (hst : r.state = .due) : s.judgeEnd room = s.refuse .noMeeting := by
  rw [State.judgeEnd, hnow]
  simp only [hcur]
  exact if_neg (by simp [hst])

/-- An IN_USE reservation is ended at the bound, left as it is, or its answer is a free value. -/
theorem State.judgeEnd_inUse (hst : r.state = .inUse) {bound : Nat} (hb : bound = max (now + 1) (r.start + 1)) :
    s.judgeEnd room =
      if bound < r.stop then
        ((s.changeRes i fun r => { r with state := .ended, stop := bound, endReason := some .endEarly
                                          closedAt := some { day := s.clock.day, slot := now }, dirty := true }).closeDone
          room, .granted r.start bound)
      else if r.stop = bound then (s, .granted r.start r.stop)
      else ({ s with freeCount := s.freeCount + 1 },
        if Config.freeGranted s.freeCount then .granted r.start r.stop else .refused .noMeeting) := by
  subst hb
  have hclosed : s.closedNow = { day := s.clock.day, slot := now } := by rw [State.closedNow, hnow]; rfl
  rw [State.judgeEnd, hnow]
  simp only [hcur, if_pos hst, hclosed]

end

/-! ## KEY EXTEND (R56) -/

section

variable {room : Nat}

theorem State.judgeExtend_noTime (h : s.curSlot = none) : s.judgeExtend room = s.refuse .noTime := by
  rw [State.judgeExtend, h]

variable {now : Nat} (hnow : s.curSlot = some now)
include hnow

theorem State.judgeExtend_shut (h : (s.room room).service ≠ .opened) :
    s.judgeExtend room = s.refuse .roomClosed := by
  rw [State.judgeExtend, hnow]
  exact if_pos (State.shut_of_not_opened h)

variable (hopen : (s.room room).service = .opened)
include hopen

theorem State.judgeExtend_empty (hcur : s.current room = none) : s.judgeExtend room = s.refuse .noMeeting := by
  rw [State.judgeExtend, hnow]
  simp only [if_neg (State.not_shut_of_opened hopen), hcur]

theorem State.judgeExtend_current {i : Nat} {r : Reservation} (hcur : s.current room = some (i, r)) :
    s.judgeExtend room =
      if r.state = .inUse then
        if r.stop + 1 ≤ 288 ∧ s.conflict room .today r.start (r.stop + 1) r.tail (some i) = none then
          (s.changeRes i fun r => { r with stop := r.stop + 1, dirty := true }, .granted r.start (r.stop + 1))
        else s.refuse .nextTooSoon
      else s.refuse .noMeeting := by
  rw [State.judgeExtend, hnow]
  simp only [if_neg (State.not_shut_of_opened hopen), hcur]

end

/-- Settles O49: each request by the room its frame applies to, the clock, the room and the TODAY list. -/
theorem panelKeysAreJudged : Obligations.PanelKeysAreJudged := by
  constructor
  · intro s src room h hcatch hlt hsrc request hreq
    have hroom := State.frameRoom_panel (hsrc.imp_right fun hr => ⟨hr, hlt⟩)
    rcases hreq with rfl | rfl | rfl
    · exact exec_panelRequest_waits h (exec_keyCheckIn src) rfl hcatch hroom
    · exact exec_panelRequest_waits h (exec_keyEnd src) rfl hcatch hroom
    · exact exec_panelRequest_waits h (exec_keyExtend src) rfl hcatch hroom
  intro s src h hcatch d answered
  refine ⟨fun hsrc c hc => ?discarded, fun room hsrc => ?judged⟩
  case discarded =>
    have hroom := State.frameRoom_noPanel hsrc
    rcases hc with rfl | rfl | rfl
    · exact exec_panelRequest_discarded h (exec_keyCheckIn src) hroom
    · exact exec_panelRequest_discarded h (exec_keyEnd src) hroom
    · exact exec_panelRequest_discarded h (exec_keyExtend src) hroom
  have hroom := State.frameRoom_panel hsrc
  have checkIn : ∀ {u x}, (s.takeDue (.keyCheckIn src)).judgeCheckIn room = (u, x) →
      exec (.keyCheckIn src) s = .next (answered u .checkIn x).sent :=
    fun hj => exec_panelRequest_judged h (exec_keyCheckIn src) rfl hcatch hroom hj
  have finish : ∀ {u x}, (s.takeDue (.keyEnd src)).judgeEnd room = (u, x) →
      exec (.keyEnd src) s = .next (answered u .finish x).sent :=
    fun hj => exec_panelRequest_judged h (exec_keyEnd src) rfl hcatch hroom hj
  have extend : ∀ {u x}, (s.takeDue (.keyExtend src)).judgeExtend room = (u, x) →
      exec (.keyExtend src) s = .next (answered u .extend x).sent :=
    fun hj => exec_panelRequest_judged h (exec_keyExtend src) rfl hcatch hroom hj
  intro t refused
  refine ⟨fun hset => ?unset, fun hset hshut => ?shut, fun now hnow =>
    ⟨fun hopen => ?checkIn, fun c hc => ?finish, fun hopen => ?extend⟩⟩
  case unset =>
    have hnone := State.curSlot_of_unset hset
    exact ⟨checkIn (State.judgeCheckIn_noTime (s := t (.keyCheckIn src)) hnone), finish (State.judgeEnd_noTime (s := t (.keyEnd src)) hnone),
      extend (State.judgeExtend_noTime (s := t (.keyExtend src)) hnone)⟩
  case shut =>
    obtain ⟨now, hnow⟩ := State.curSlot_of_set hset
    exact ⟨checkIn (State.judgeCheckIn_shut (s := t (.keyCheckIn src)) hnow hshut), extend (State.judgeExtend_shut (s := t (.keyExtend src)) hnow hshut)⟩
  case checkIn =>
    refine ⟨fun i r hcur hst => ?_, fun i r hcur hst => ?_, fun hcur => ⟨fun i r hf he => ?_, fun i r hf he => ?_,
      fun hf hl => ?_, fun hf hl ha => ?_, fun hf hl ha => ?_⟩⟩
    · exact checkIn ((State.judgeCheckIn_current (s := t (.keyCheckIn src)) hnow hopen hcur).trans (if_pos hst))
    · exact checkIn ((State.judgeCheckIn_current (s := t (.keyCheckIn src)) hnow hopen hcur).trans (if_neg (by simp [hst])))
    · exact checkIn ((State.judgeCheckIn_early (s := t (.keyCheckIn src)) hnow hopen hcur hf).trans (by rw [if_pos he]))
    · exact checkIn ((State.judgeCheckIn_early (s := t (.keyCheckIn src)) hnow hopen hcur hf).trans (by rw [he]; rfl))
    · exact checkIn ((State.judgeCheckIn_none (s := t (.keyCheckIn src)) hnow hopen hcur hf).trans (if_pos hl))
    · exact checkIn ((State.judgeCheckIn_none (s := t (.keyCheckIn src)) hnow hopen hcur hf).trans ((if_neg (Bool.eq_false_iff.1 hl)).trans
        (if_pos ha)))
    · exact checkIn ((State.judgeCheckIn_none (s := t (.keyCheckIn src)) hnow hopen hcur hf).trans ((if_neg (Bool.eq_false_iff.1 hl)).trans
        (if_neg (Bool.eq_false_iff.1 ha))))
  case finish =>
    subst hc
    refine ⟨fun hcur => finish (State.judgeEnd_empty (s := t (.keyEnd src)) hnow hcur), fun i r hcur =>
      ⟨fun hst => finish (State.judgeEnd_due (s := t (.keyEnd src)) hnow hcur hst), fun hst hlt => ?_, fun hst heq => ?_, fun hst hgt => ?_⟩⟩
    · exact finish ((State.judgeEnd_inUse (s := t (.keyEnd src)) hnow hcur hst rfl).trans (if_pos hlt))
    · exact finish ((State.judgeEnd_inUse (s := t (.keyEnd src)) hnow hcur hst rfl).trans ((if_neg (by omega)).trans (if_pos heq)))
    · have hj := (State.judgeEnd_inUse (s := t (.keyEnd src)) hnow hcur hst rfl).trans
        ((if_neg (by omega)).trans (if_neg (by omega)))
      refine ⟨if Config.freeGranted s.freeCount then .granted r.start r.stop else .refused .noMeeting, ?_, finish hj⟩
      split
      · exact .inl rfl
      · exact .inr rfl
  case extend =>
    refine ⟨fun hcur => extend (State.judgeExtend_empty (s := t (.keyExtend src)) hnow hopen hcur), fun i r hcur =>
      ⟨fun hst => ?_, fun hst hno => ?_, fun hst hle hclear => ?_⟩⟩
    · exact extend ((State.judgeExtend_current (s := t (.keyExtend src)) hnow hopen hcur).trans (if_neg (by simp [hst])))
    · refine extend ((State.judgeExtend_current (s := t (.keyExtend src)) hnow hopen hcur).trans ((if_pos hst).trans (if_neg fun hyes => ?_)))
      exact hno.elim (fun hlt => absurd hyes.1 (by omega)) fun hc => hc hyes.2
    · exact extend ((State.judgeExtend_current (s := t (.keyExtend src)) hnow hopen hcur).trans ((if_pos hst).trans (if_pos ⟨hle, hclear⟩)))

end Sys2Proof.Machine
end

section
/-! PROOFS. WALKUP (R57, R58): its duration, and the record it makes. -/

namespace Sys2Proof.Machine

variable {s : State} {room now : Nat}

/-! ## The next blocked window (R58) -/

/-- A record's blocked window starts at a slot, at or after the present one. -/
def blocksFrom (now : Nat) (x : Nat × Reservation) (n : Nat) : Prop :=
  ∃ w, x.2.blocked = some w ∧ w.1 < w.2 ∧ now ≤ w.1 ∧ n = w.1

/-- The least start so far, with one record more. -/
def earlierStart (now b : Nat) (x : Nat × Reservation) : Nat :=
  match x.2.blocked with
  | some w => if w.1 < w.2 ∧ now ≤ w.1 then min b w.1 else b
  | none => b

theorem State.nextBlocked_eq : s.nextBlocked room now = (s.todayRecords room).foldl (earlierStart now) 288 := rfl

theorem earlierStart_of_blocks {b n : Nat} {x : Nat × Reservation} (h : blocksFrom now x n) :
    earlierStart now b x = min b n := by
  obtain ⟨w, hw, hlt, hle, rfl⟩ := h
  simp only [earlierStart, hw, if_pos (And.intro hlt hle)]

theorem earlierStart_of_not {b : Nat} {x : Nat × Reservation} (h : ∀ n, ¬blocksFrom now x n) :
    earlierStart now b x = b := by
  unfold earlierStart
  split
  next w hw => exact if_neg fun hc => h w.1 ⟨w, hw, hc.1, hc.2, rfl⟩
  next => rfl

theorem blocksFrom_inj {m n : Nat} {x : Nat × Reservation} (hm : blocksFrom now x m) (hn : blocksFrom now x n) :
    m = n := by
  obtain ⟨w, hw, -, -, rfl⟩ := hm
  obtain ⟨w', hw', -, -, rfl⟩ := hn
  rw [Option.some.inj (hw.symm.trans hw')]

/-- The least start of a list's windows is at or before each of them, and one of them if it is not the first value. -/
theorem foldl_earlierStart (l : List (Nat × Reservation)) (b : Nat) :
    l.foldl (earlierStart now) b ≤ b ∧ (∀ x ∈ l, ∀ n, blocksFrom now x n → l.foldl (earlierStart now) b ≤ n) ∧
      (l.foldl (earlierStart now) b = b ∨ ∃ x ∈ l, blocksFrom now x (l.foldl (earlierStart now) b)) := by
  induction l generalizing b with
  | nil => exact ⟨Nat.le_refl _, by simp, .inl rfl⟩
  | cons y l ih =>
    obtain ⟨hle, hlow, hat⟩ := ih (earlierStart now b y)
    rw [List.foldl_cons]
    by_cases hy : ∃ n, blocksFrom now y n
    · obtain ⟨n, hn⟩ := hy
      rw [earlierStart_of_blocks hn] at hle hlow hat ⊢
      refine ⟨by omega, fun x hx m hm => ?_, ?_⟩
      · rcases List.mem_cons.1 hx with rfl | hx
        · rw [blocksFrom_inj hm hn]; omega
        · exact hlow x hx m hm
      · rcases hat with hat | ⟨x, hx, hb⟩
        · rcases Nat.le_total b n with hbn | hnb
          · exact .inl (by omega)
          · exact .inr ⟨y, .head _, by rwa [hat, Nat.min_eq_right hnb]⟩
        · exact .inr ⟨x, .tail _ hx, hb⟩
    · have hno := not_exists.1 hy
      rw [earlierStart_of_not hno] at hle hlow hat ⊢
      refine ⟨hle, fun x hx m hm => ?_, hat.imp_right fun ⟨x, hx, hb⟩ => ⟨x, .tail _ hx, hb⟩⟩
      rcases List.mem_cons.1 hx with rfl | hx
      · exact absurd hm (hno m)
      · exact hlow x hx m hm

theorem State.mem_todayRecords {i : Nat} {r : Reservation} :
    (i, r) ∈ s.todayRecords room ↔ i ∈ (s.room room).today ∧ s.res i = some r := by
  simp only [State.todayRecords, List.mem_filterMap, Option.map_eq_some_iff, Prod.mk.injEq]
  constructor
  · rintro ⟨j, hj, x, hx, rfl, rfl⟩
    exact ⟨hj, hx⟩
  · exact fun ⟨hi, hr⟩ => ⟨i, hi, r, hr, rfl, rfl⟩

/-- The next blocked window is the least start of a window with a slot, or the end of the day. -/
theorem State.nextBlocked_unique {b : Nat} (hb : b ≤ 288)
    (hat : b = 288 ∨ ∃ x ∈ s.todayRecords room, blocksFrom now x b)
    (hlow : ∀ x ∈ s.todayRecords room, ∀ n, blocksFrom now x n → b ≤ n) : s.nextBlocked room now = b := by
  obtain ⟨hle, hleast, hfound⟩ := foldl_earlierStart (now := now) (s.todayRecords room) 288
  rw [State.nextBlocked_eq]
  refine Nat.le_antisymm ?_ ?_
  · rcases hat with rfl | ⟨x, hx, hb⟩
    · exact hle
    · exact hleast x hx b hb
  · rcases hfound with heq | ⟨x, hx, hb⟩
    · rw [heq]; exact hb
    · exact hlow x hx _ hb

/-! ## WALKUP judged (R57) -/

section

variable {n : Nat}

theorem State.judgeWalkup_noTime (h : s.curSlot = none) : State.judgeWalkup n s room = s.refuse .noTime := by
  rw [State.judgeWalkup, h]

variable (hnow : s.curSlot = some now)
include hnow

theorem State.judgeWalkup_shut (h : (s.room room).service ≠ .opened) :
    State.judgeWalkup n s room = s.refuse .roomClosed := by
  rw [State.judgeWalkup, hnow]
  exact if_pos (State.shut_of_not_opened h)

variable (hopen : (s.room room).service = .opened)
include hopen

theorem State.judgeWalkup_current {i : Nat} {r : Reservation} (h : s.current room = some (i, r)) :
    State.judgeWalkup n s room = s.refuse (if r.state = .inUse then .inUse else .bookedNow) := by
  rw [State.judgeWalkup, hnow]
  simp only [if_neg (State.not_shut_of_opened hopen), h]

variable (hcur : s.current room = none)
include hcur

theorem State.judgeWalkup_turnaround (h : s.inTurnaround room now = true) :
    State.judgeWalkup n s room = s.refuse .turnaround := by
  rw [State.judgeWalkup, hnow]
  simp only [if_neg (State.not_shut_of_opened hopen), hcur, if_pos h]

variable (hturn : s.inTurnaround room now = false) {d : Nat}
  (hd : d = min (min (clampWalkup n) (s.classOf room).walkupMax)
    (min (288 - now) (s.nextBlocked room now - now - (s.classOf room).turnaround)))
include hturn hd

theorem State.judgeWalkup_short (h0 : d = 0) : State.judgeWalkup n s room = s.refuse .nextTooSoon := by
  subst hd
  rw [State.judgeWalkup, hnow]
  simp only [if_neg (State.not_shut_of_opened hopen), hcur, hturn, Bool.false_eq_true, if_false, if_pos h0]

variable (h0 : d ≠ 0)
include h0

theorem State.judgeWalkup_listFull (ha : s.allocate room .today 0 = .error .roomListFull) :
    State.judgeWalkup n s room = s.refuse .roomListFull := by
  subst hd
  rw [State.judgeWalkup, hnow]
  simp only [if_neg (State.not_shut_of_opened hopen), hcur, hturn, Bool.false_eq_true, if_false, if_neg h0, ha]

theorem State.judgeWalkup_poolFull (ha : s.allocate room .today 0 = .error .poolFull) :
    State.judgeWalkup n s room = s.refuse .poolFull := by
  subst hd
  rw [State.judgeWalkup, hnow]
  simp only [if_neg (State.not_shut_of_opened hopen), hcur, hturn, Bool.false_eq_true, if_false, if_neg h0, ha]

theorem State.judgeWalkup_granted {p : Place} (ha : s.allocate room .today 0 = .ok p) :
    State.judgeWalkup n s room =
      (s.create p (walkupRecord room now d (s.classOf room).turnaround), .granted now (now + d)) := by
  subst hd
  rw [State.judgeWalkup, hnow]
  simp only [if_neg (State.not_shut_of_opened hopen), hcur, hturn, Bool.false_eq_true, if_false, if_neg h0, ha]

end

/-! ## The place of a new record (R26, R29) -/

/-- The lowest free index of some. -/
def State.firstFree (s : State) (is : List Nat) : Option Nat := is.find? fun i => s.res i = none

/-- The place that the first two checks of R26 find, for a day list. -/
def State.placeIn (s : State) (list : List Nat) : Except Code Place :=
  if list.length < 32 then
    match s.firstFree (List.range 768) with
    | some i => .ok { index := i, reclaim := none }
    | none =>
      match s.earliest (List.range 768) with
      | some i => .ok { index := i, reclaim := some i }
      | none => .error .poolFull
  else
    match s.earliest list with
    | some i => .ok { index := i, reclaim := some i }
    | none => .error .roomListFull

/-- The order records that a reclaim frees. -/
def State.freedOrders (s : State) (p : Place) : Nat :=
  match p.reclaim.bind s.res with
  | some r => (s.orders.filter fun o => r.orders.contains o.id).length
  | none => 0

theorem State.allocate_eq (day : Day) (n : Nat) : s.allocate room day n =
    match s.placeIn (s.dayList room day) with
    | .error c => .error c
    | .ok p => if n ≤ 256 - s.orders.length + s.freedOrders p then .ok p else .error .orderPoolFull := by
  unfold State.allocate State.placeIn State.firstFree State.freedOrders
  by_cases hlen : (s.dayList room day).length < 32
  · simp only [if_pos hlen] <;> cases (List.range 768).find? fun i => decide (s.res i = none) <;>
      cases s.earliest (List.range 768) <;> rfl
  · simp only [if_neg hlen] <;> cases s.earliest (s.dayList room day) <;> rfl

/-- The place depends on the pool, the rooms, the clock and the orders alone. -/
theorem State.allocate_congr {t : State} (hpool : t.pool = s.pool) (hrooms : t.rooms = s.rooms)
    (hclock : t.clock = s.clock) (horders : t.orders = s.orders) (day : Day) (n : Nat) :
    t.allocate room day n = s.allocate room day n := by
  have hres : t.res = s.res := by funext i; rw [State.res, State.res, hpool]
  have hlist : t.dayList room day = s.dayList room day := by simp only [State.dayList, State.room, hrooms]
  have hfree : t.firstFree = s.firstFree := by funext is; rw [State.firstFree, State.firstFree, hres]
  have horder : t.order = s.order := by funext id; rw [State.order, State.order, horders]
  have hslot : t.curSlot = s.curSlot := by rw [State.curSlot, State.curSlot, hclock]
  have hholds : t.holdsRecord = s.holdsRecord := by funext id; rw [State.holdsRecord, State.holdsRecord, horder]
  have hcandidate : t.isCandidate = s.isCandidate := by
    funext i; rw [State.isCandidate, State.isCandidate, hres, hslot, hholds]
  have hage : t.age = s.age := by funext i; rw [State.age, State.age, hres, hclock]
  have hearliest : t.earliest = s.earliest := by
    funext is; rw [State.earliest, State.earliest, hcandidate, hage]
  have hplace : t.placeIn = s.placeIn := by funext l; rw [State.placeIn, State.placeIn, hfree, hearliest]
  have hfreed : t.freedOrders = s.freedOrders := by
    funext p; rw [State.freedOrders, State.freedOrders, hres, horders]
  rw [State.allocate_eq, State.allocate_eq, hlist, hplace, horders, hfreed]

theorem exec_walkup (src : FrameFrom) (n : Nat) : exec (.walkup src n) s = run (.walkup src n) s
    (s.settled.panelRequest (.walkup src n) src (fun room => .walkup { src with room := some room } n) .walkup
      (State.judgeWalkup n)) := rfl

/-- A duration below zero is 0 in the model, and refused all the same. -/
theorem walkup_duration (n most now b turn : Nat) :
    (min (min (min 12 (max 1 (n : Int))) most) (min (288 - now) ((b : Int) - now - turn))).toNat =
      min (min (clampWalkup n) most) (min (288 - now) (b - now - turn)) := by
  have hasked : min (min 12 (max 1 (n : Int))) most = (min (clampWalkup n) most : Nat) := by
    rw [clampWalkup]
    push_cast
    rfl
  rw [hasked]
  generalize min (clampWalkup n) most = asked
  omega

/-- A walk-up stands in its room's TODAY list. -/
theorem State.walkup_listed {p : Place} {d tail : Nat} (h : room < 48) :
    p.index ∈ ((s.create p (walkupRecord room now d tail)).room room).today := by
  have hroom : (walkupRecord room now d tail).room < 48 := by rw [walkupRecord]; exact h
  exact State.mem_create (day := .today) hroom (by rw [walkupRecord]) (by decide)

/-- Settles O50: by the room the frame applies to, the room, the TODAY list and the duration. -/
theorem walkupIsJudged : Obligations.WalkupIsJudged := by
  refine ⟨fun s src n h hsrc => exec_panelRequest_discarded h (exec_walkup src n) (State.frameRoom_noPanel hsrc),
    fun s src n room h hcatch hlt hsrc => exec_panelRequest_waits h (exec_walkup src n) rfl hcatch
      (State.frameRoom_panel (hsrc.imp_right fun hr => ⟨hr, hlt⟩)), fun s src n room h hcatch hlt hsrc => ?judged⟩
  intro c t answered refused
  have hroom := State.frameRoom_panel (hsrc.imp_right fun hr => ⟨hr, hlt⟩)
  have walkup : ∀ {u x}, State.judgeWalkup n t room = (u, x) → exec c s = .next (answered u x).sent :=
    fun hj => exec_panelRequest_judged h (exec_walkup src n) rfl hcatch hroom hj
  refine ⟨fun hset => walkup (State.judgeWalkup_noTime (s := t) (State.curSlot_of_unset hset)), fun hset hshut => ?shut,
    fun now hnow hopen => ⟨fun i r hcur hst => ?inUse, fun i r hcur hst => ?bookedNow,
      fun hcur hturn => walkup (State.judgeWalkup_turnaround (s := t) hnow hopen hcur hturn),
      fun hcur hturn b => ?duration⟩⟩
  case shut =>
    obtain ⟨now, hnow⟩ := State.curSlot_of_set hset
    exact walkup (State.judgeWalkup_shut (s := t) hnow hshut)
  case inUse =>
    refine walkup ((State.judgeWalkup_current (s := t) hnow hopen hcur).trans ?_)
    rw [if_pos hst]; rfl
  case bookedNow =>
    refine walkup ((State.judgeWalkup_current (s := t) hnow hopen hcur).trans ?_)
    rw [hst]; rfl
  intro starts hb hat hlow k d
  have hblocked : t.nextBlocked room now = b := by
    refine State.nextBlocked_unique hb (hat.imp_right ?_) ?_
    · rintro ⟨i, r, w, hi, hr, hw, hlt, hle, he⟩
      exact ⟨(i, r), State.mem_todayRecords.2 ⟨hi, hr⟩, w, hw, hlt, hle, he⟩
    · rintro ⟨i, r⟩ hx m ⟨w, hw, hlt, hle, he⟩
      obtain ⟨hi, hr⟩ := State.mem_todayRecords.1 hx
      exact hlow m ⟨i, r, w, hi, hr, hw, hlt, hle, he⟩
  have hd : d.toNat = min (min (clampWalkup n) (t.classOf room).walkupMax)
      (min (288 - now) (t.nextBlocked room now - now - (t.classOf room).turnaround)) := by
    rw [hblocked]
    exact walkup_duration n (t.classOf room).walkupMax now b (t.classOf room).turnaround
  have hplace : t.allocate room .today 0 = s.allocate room .today 0 :=
    State.allocate_congr (s := s) (t := t) rfl rfl rfl rfl .today 0
  have hlong : 1 ≤ d → d.toNat ≠ 0 := fun h1 => (Int.pos_iff_toNat_pos.1 (Int.lt_of_add_one_le h1)).ne'
  exact ⟨fun h0 => walkup (State.judgeWalkup_short (s := t) hnow hopen hcur hturn hd
      (Int.toNat_of_nonpos (Int.lt_add_one_iff.1 h0))),
    fun h1 ha => walkup (State.judgeWalkup_listFull (s := t) hnow hopen hcur hturn hd (hlong h1)
      (hplace.trans ha)),
    fun h1 ha => walkup (State.judgeWalkup_poolFull (s := t) hnow hopen hcur hturn hd (hlong h1)
      (hplace.trans ha)),
    fun h1 p ha => ⟨walkup (State.judgeWalkup_granted (s := t) hnow hopen hcur hturn hd (hlong h1)
      (hplace.trans ha)),
      fun j hj hr => State.res_create_other (s := t) hj hr,
      State.walkup_listed (s := t) hlt⟩⟩

end Sys2Proof.Machine
end

section
/-! PROOFS. Which records may be reclaimed, the place of a new record, and what a reclaim leaves (R26 to R30). -/

namespace Sys2Proof.Machine

variable {s : State} {i : Nat}

/-! ## Reclaim candidates (R27, R28) -/

theorem State.holdsRecord_eq_false {id : OrderId} : s.holdsRecord id = false ↔ ∀ o, s.order id = some o →
    o.state ≠ .held ∧ o.state ≠ .queued ∧ o.state ≠ .sent ∧ o.state ≠ .cancelPending := by
  cases ho : s.order id with
  | none => simp [State.holdsRecord, ho]
  | some o => cases hst : o.state <;> simp [State.holdsRecord, ho, hst, OrderState.inFlight]

/-- The states and days in which a record may be reclaimed. -/
def State.outlived (s : State) (r : Reservation) : Prop :=
  r.state = .released ∨ r.state = .cancelled ∨ (r.state = .ended ∧ (r.day = .past ∨
    (r.day = .today ∧ ∃ now, s.curSlot = some now ∧ min (r.stop + r.tail) 288 ≤ now)))

theorem State.isCandidate_some {r : Reservation} (h : s.res i = some r) : s.isCandidate i = true ↔
    r.dirty = false ∧ s.outlived r ∧ ∀ id ∈ r.orders, s.holdsRecord id = false := by
  have horders : (!r.orders.any s.holdsRecord) = true ↔ ∀ id ∈ r.orders, s.holdsRecord id = false := by simp
  rw [State.isCandidate, h]
  simp only [Bool.and_eq_true, horders, Bool.not_eq_true', and_assoc]
  refine and_congr_right' (and_congr_left' ?_)
  unfold State.outlived
  cases hst : r.state with
  | booked | due | inUse => simp
  | released | cancelled => simp
  | ended =>
    cases hd : r.day with
    | past => simp
    | next => simp
    | today => cases hc : s.curSlot <;> simp [Reservation.effEnd]

theorem State.isCandidate_none (h : s.res i = none) : s.isCandidate i = false := by
  rw [State.isCandidate, h]

theorem State.isCandidate_iff : s.isCandidate i = true ↔ ∃ r, s.res i = some r ∧ r.dirty = false ∧ s.outlived r ∧
    ∀ id ∈ r.orders, s.holdsRecord id = false := by
  cases h : s.res i with
  | none => simp [State.isCandidate_none h]
  | some r => simp [State.isCandidate_some h]

theorem State.index_of_isCandidate (h : s.isCandidate i = true) : i < 768 := by
  obtain ⟨r, hr, -⟩ := State.isCandidate_iff.1 h
  exact State.res_index hr

/-- The earliest candidate is the one of least age. -/
theorem State.earliest_eq (is : List Nat) : s.earliest is = (is.filter s.isCandidate).argmin s.age := by
  rw [List.argmin, List.foldl_filter, State.earliest]
  congr 1
  funext best j
  cases best <;> rfl

theorem State.earliest_none {is : List Nat} : s.earliest is = none ↔ ∀ j ∈ is, s.isCandidate j = false := by
  simp [State.earliest_eq]

theorem State.earliest_mem {is : List Nat} (h : s.earliest is = some i) : i ∈ is ∧ s.isCandidate i = true := by
  rw [State.earliest_eq] at h
  exact List.mem_filter.1 (List.argmin_mem h)

theorem State.earliest_least {is : List Nat} (h : s.earliest is = some i) {j : Nat} (hj : j ∈ is)
    (hc : s.isCandidate j = true) : s.age i ≤ s.age j := by
  rw [State.earliest_eq] at h
  exact List.le_of_mem_argmin (List.mem_filter.2 ⟨hj, hc⟩) h

/-- How far a day lies back from the clock's day (R28). -/
def State.daysBack (s : State) (x : ClosedAt) : Nat := (s.clock.day + 65536 - x.day) % 65536

theorem State.age_eq {a : ClosedAt} (h : (s.res i).bind Reservation.closedAt = some a) :
    s.age i = ((65535 - s.daysBack a) * 289 + a.slot) * 768 + i := by
  rw [State.age, h]
  rfl

/-- Of two numbers of a base with one digit each below it, the greater has no lesser rest. -/
theorem le_of_digits {b x y i j : Nat} (hj : j < b) (hle : x * b + i ≤ y * b + j) : x ≤ y := by
  by_contra hlt
  have hstep : (y + 1) * b ≤ x * b := Nat.mul_le_mul_right b (Nat.not_le.1 hlt)
  rw [Nat.add_mul, Nat.one_mul] at hstep
  omega

/-- The order of ages is that of closed at, then of the index; `x` and `y` are what the days lie on from the last day. -/
theorem closed_before_of_age {x y sa sb i j : Nat} (hsb : sb ≤ 288) (hj : j < 768) (hne : j ≠ i)
    (hle : (x * 289 + sa) * 768 + i ≤ (y * 289 + sb) * 768 + j) :
    x < y ∨ (x = y ∧ (sa < sb ∨ (sa = sb ∧ i < j))) := by
  have hslots : x * 289 + sa ≤ y * 289 + sb := le_of_digits hj hle
  have hdays : x ≤ y := le_of_digits (Nat.lt_succ_of_le hsb) hslots
  rcases Nat.lt_or_eq_of_le hdays with hlt | rfl
  · exact .inl hlt
  rcases Nat.lt_or_eq_of_le (Nat.le_of_add_le_add_left hslots) with hlt | rfl
  · exact .inr ⟨rfl, .inl hlt⟩
  · exact .inr ⟨rfl, .inr ⟨rfl, Nat.lt_of_le_of_ne (Nat.le_of_add_le_add_left hle) hne.symm⟩⟩

theorem State.daysBack_le (x : ClosedAt) : s.daysBack x ≤ 65535 :=
  Nat.le_of_lt_succ (Nat.mod_lt _ (Nat.succ_pos _))

/-! ## The place of a new record (R26, R29) -/

theorem State.firstFree_some {is : List Nat} (h : s.firstFree is = some i) : i ∈ is ∧ s.res i = none :=
  ⟨List.mem_of_find?_eq_some h, of_decide_eq_true (List.find?_some (p := fun j => decide (s.res j = none)) h)⟩

theorem State.firstFree_of_least (hi : i < 768) (hfree : s.res i = none) (hbelow : ∀ j, j < i → s.res j ≠ none) :
    s.firstFree (List.range 768) = some i := by
  rw [State.firstFree, List.find?_range_eq_some]
  refine ⟨decide_eq_true hfree, List.mem_range.2 hi, fun j hj => ?_⟩
  rw [decide_eq_false (hbelow j hj)]; rfl

theorem State.firstFree_of_full (h : ∀ j, j < 768 → s.res j ≠ none) : s.firstFree (List.range 768) = none := by
  rw [State.firstFree, List.find?_eq_none]
  intro j hj
  rw [decide_eq_false (h j (List.mem_range.1 hj))]
  exact Bool.false_ne_true

section

variable {list : List Nat}

theorem State.placeIn_list (h : 32 ≤ list.length) (he : s.earliest list = some i) :
    s.placeIn list = .ok { index := i, reclaim := some i } := by
  simp only [State.placeIn, if_neg (Nat.not_lt.2 h), he]

theorem State.placeIn_listFull (h : 32 ≤ list.length) (he : s.earliest list = none) :
    s.placeIn list = .error .roomListFull := by
  simp only [State.placeIn, if_neg (Nat.not_lt.2 h), he]

theorem State.placeIn_free (h : list.length < 32) (hf : s.firstFree (List.range 768) = some i) :
    s.placeIn list = .ok { index := i, reclaim := none } := by
  simp only [State.placeIn, if_pos h, hf]

theorem State.placeIn_pool (h : list.length < 32) (hf : s.firstFree (List.range 768) = none)
    (he : s.earliest (List.range 768) = some i) : s.placeIn list = .ok { index := i, reclaim := some i } := by
  simp only [State.placeIn, if_pos h, hf, he]

theorem State.placeIn_poolFull (h : list.length < 32) (hf : s.firstFree (List.range 768) = none)
    (he : s.earliest (List.range 768) = none) : s.placeIn list = .error .poolFull := by
  simp only [State.placeIn, if_pos h, hf, he]

/-- The place found lies in the pool. -/
theorem State.placeIn_index {p : Place} (h : s.placeIn list = .ok p) : p.index < 768 := by
  rcases Nat.lt_or_ge list.length 32 with hlen | hlen
  · cases hf : s.firstFree (List.range 768) with
    | some i =>
      cases (State.placeIn_free hlen hf).symm.trans h
      exact List.mem_range.1 (State.firstFree_some hf).1
    | none =>
      cases he : s.earliest (List.range 768) with
      | none => cases (State.placeIn_poolFull hlen hf he).symm.trans h
      | some i =>
        cases (State.placeIn_pool hlen hf he).symm.trans h
        exact State.index_of_isCandidate (State.earliest_mem he).2
  · cases he : s.earliest list with
    | none => cases (State.placeIn_listFull hlen he).symm.trans h
    | some i =>
      cases (State.placeIn_list hlen he).symm.trans h
      exact State.index_of_isCandidate (State.earliest_mem he).2

end

section

variable {room : Nat} {day : Day} {n : Nat}

theorem State.allocate_error {c : Code} (h : s.placeIn (s.dayList room day) = .error c) :
    s.allocate room day n = .error c := by
  rw [State.allocate_eq, h]

theorem State.allocate_place {p : Place} (h : s.placeIn (s.dayList room day) = .ok p) : s.allocate room day n =
    if n ≤ 256 - s.orders.length + s.freedOrders p then .ok p else .error .orderPoolFull := by
  rw [State.allocate_eq, h]

theorem State.allocate_index {p : Place} (h : s.allocate room day n = .ok p) : p.index < 768 := by
  cases hp : s.placeIn (s.dayList room day) with
  | error c => rw [State.allocate_error hp] at h; cases h
  | ok q =>
    rw [State.allocate_place hp] at h
    split at h
    next => cases h; exact State.placeIn_index hp
    next => cases h

/-- A place found gets the record, when the pool has its orders' records. -/
theorem State.allocate_gives {reclaim : Option Nat}
    (h : s.placeIn (s.dayList room day) = .ok { index := i, reclaim := reclaim }) {freed : Nat}
    (hf : freed = s.freedOrders { index := i, reclaim := reclaim }) :
    (n ≤ 256 - s.orders.length + freed → s.allocate room day n = .ok { index := i, reclaim := reclaim }) ∧
      (256 - s.orders.length + freed < n → s.allocate room day n = .error .orderPoolFull) := by
  subst hf
  exact ⟨fun hle => (State.allocate_place h).trans (if_pos hle),
    fun hlt => (State.allocate_place h).trans (if_neg (Nat.not_le.2 hlt))⟩

end

/-! ## What a reclaim leaves (R30) -/

theorem State.create_reclaim (x : Reservation) : s.create { index := i, reclaim := some i } x =
    (s.freeRecord i).create { index := i, reclaim := none } x := rfl

theorem State.dayList_freeRecord {r : Reservation} (h : s.res i = some r) (hroom : r.room < 48) :
    (s.freeRecord i).dayList r.room r.day = (s.dayList r.room r.day).filter fun j => decide (j ≠ i) := by
  rw [State.freeRecord_some h,
    ← State.dayList_modList_same hroom (fun l => l.filter fun j => decide (j ≠ i)) fun _ => rfl]
  exact congrArg (fun e : RoomEntry => match r.day with | .today => e.today | .next => e.next | .past => [])
    (State.room_unlist r.room)

theorem State.room_freeRecord_other {r : Reservation} (h : s.res i = some r) {room : Nat} (hroom : room ≠ r.room) :
    (s.freeRecord i).room room = s.room room := by
  rw [State.freeRecord_some h]
  exact (State.room_unlist room).trans (State.room_modList_other hroom _ _)

theorem State.order_freeRecord {r : Reservation} (h : s.res i = some r) (id : OrderId) :
    (s.freeRecord i).order id = if id ∈ r.orders then none else s.order id := by
  rw [State.freeRecord_some h]
  refine (State.order_freeOrders (s := s.unlist i r) r.orders id).trans ?_
  rw [State.unlist_frame]
  rfl

/-- A drop with a room is one of the Drop Table. -/
theorem State.valid_of_room {d : DropCode} {room : Nat} (h : (s.drop d).room = some room) : validDrop d = true := by
  by_contra hv
  rw [State.drop, if_neg hv] at h
  cases h

theorem State.mem_boundPanels {d : DropCode} {room : Nat} :
    d ∈ s.boundPanels room ↔ (s.drop d).kind = .roomPanel ∧ (s.drop d).room = some room := by
  rw [State.boundPanels, List.mem_filter, mem_allDrops, Bool.and_eq_true, decide_eq_true_eq, decide_eq_true_eq]
  exact ⟨And.right, fun h => ⟨State.valid_of_room h.2, h⟩⟩

theorem State.drop_freeRecord {r : Reservation} (h : s.res i = some r) (d : DropCode) : (s.freeRecord i).drop d =
    if r.day = .today ∧ d ∈ s.boundPanels r.room then { s.drop d with stale := true } else s.drop d := by
  rw [State.freeRecord_some h]
  refine (State.drop_unlist d).trans ?_
  by_cases hroom : r.day = .today ∧ (s.drop d).room = some r.room
  · rw [if_pos hroom, Drop.marked]
    refine if_congr ?_ rfl rfl
    rw [State.mem_boundPanels]
    exact ⟨fun hk => ⟨hroom.1, hk, hroom.2⟩, fun hb => hb.2.1⟩
  · rw [if_neg hroom, if_neg fun hb => hroom ⟨hb.1, (State.mem_boundPanels.1 hb.2).2⟩]

end Sys2Proof.Machine
end

section
/-! PROOFS. BOOK: its checks in order (R45, R46), and the record and the orders that it makes (R47). -/

namespace Sys2Proof.Machine

variable {s : State} {tag : Tag} {room : Nat} {day : Day} {req : BookReq}

/-! ## The checks of a BOOK in order (R45) -/

/-- A BOOK's checks do not read the Riser Port or the work that is due. -/
theorem State.bookChecks_frame (due : List Instr) (riser : Riser) :
    { s with due := due, riser := riser }.bookChecks room day req = s.bookChecks room day req := by
  unfold State.bookChecks
  rw [State.allocate_congr (s := s) (t := { s with due := due, riser := riser }) rfl rfl rfl rfl]
  rfl

theorem State.taken_bookChecks {c : Instr} {k : MsgKind} :
    (s.taken c k tag).bookChecks room day req = s.bookChecks room day req := by
  rw [State.taken_eq, State.bookChecks_frame]

theorem RoomClass.tailFor_eq {α : Type} (c : RoomClass) (l : List α) [Decidable (l = [])] :
    c.tailFor (!l.isEmpty) = c.turnaround + (if l = [] then 0 else c.clean) := by
  cases l <;> simp [RoomClass.tailFor]

section

variable {start stop tail : Nat} {except : Option Nat} {dueNow : Bool}

theorem State.blocker_conflict {i : Nat} (h : s.conflict room day start stop tail except = some i) :
    s.blocker room day start stop tail except dueNow = some i := by
  rw [State.blocker, h]

theorem State.blocker_current {i : Nat} {r : Reservation} (h : s.conflict room day start stop tail except = none)
    (hdue : dueNow = true) (hcur : s.current room = some (i, r)) :
    s.blocker room day start stop tail except dueNow = some i := by
  simp only [State.blocker, h, hdue, if_true, hcur, Option.map_some]

theorem State.blocker_none (h : s.conflict room day start stop tail except = none)
    (hcur : dueNow = true → s.current room = none) :
    s.blocker room day start stop tail except dueNow = none := by
  cases hdue : dueNow with
  | false => simp only [State.blocker, h, Bool.false_eq_true, if_false]
  | true => simp only [State.blocker, h, if_true, hcur hdue, Option.map_none]

end

section

theorem not_today_unset {b : Bool} (h : day = .today → b = true) : ¬(day = .today ∧ (!b) = true) :=
  fun hc => by rw [h hc.1] at hc; exact Bool.false_ne_true hc.2

theorem not_today_and {b : Bool} (h : day = .today → b = false) : ¬(day = .today ∧ b = true) :=
  fun hc => Bool.false_ne_true ((h hc.1).symm.trans hc.2)

theorem not_today_shut {x : Service} (h : day = .today → x = .opened) : ¬(day = .today ∧ x ≠ .opened) :=
  fun hc => hc.2 (h hc.1)

theorem State.bookChecks_noTime (hd : day = .today) (h : s.clock.isSet = false) :
    s.bookChecks room day req = .error (.noTime, .none) := if_pos ⟨hd, by rw [h]; rfl⟩

variable (hset : day = .today → s.clock.isSet = true)
include hset

theorem State.bookChecks_badWindow (h : s.badWindow req = true) :
    s.bookChecks room day req = .error (.badWindow, .none) := by
  simp only [State.bookChecks, if_neg (not_today_unset hset), if_pos h]

variable (hbad : s.badWindow req = false)
include hbad

theorem State.bookChecks_past (hd : day = .today) (h : s.reached req.stop = true) :
    s.bookChecks room day req = .error (.past, .none) := by
  simp only [State.bookChecks, if_neg (not_today_unset hset), hbad, Bool.false_eq_true, if_false,
    if_pos (And.intro hd h)]

variable (hpast : day = .today → s.reached req.stop = false)
include hpast

theorem State.bookChecks_roomClosed (hd : day = .today) (h : (s.room room).service ≠ .opened) :
    s.bookChecks room day req = .error (.roomClosed, .none) := by
  simp only [State.bookChecks, if_neg (not_today_unset hset), hbad, Bool.false_eq_true, if_false,
    if_neg (not_today_and hpast), if_pos (And.intro hd h)]

variable (hopen : day = .today → (s.room room).service = .opened)
include hopen

theorem State.bookChecks_duplicateId (h : s.duplicateId room day req = true) :
    s.bookChecks room day req = .error (.duplicateId, .none) := by
  simp only [State.bookChecks, if_neg (not_today_unset hset), hbad, Bool.false_eq_true, if_false,
    if_neg (not_today_and hpast), if_neg (not_today_shut hopen), if_pos h]

variable (hdup : s.duplicateId room day req = false)
include hdup

theorem State.bookChecks_conflict {i : Nat}
    (h : s.blocker room day req.start req.stop ((s.classOf room).tailFor (!req.orders.isEmpty)) none
      (day = .today && s.reached req.start) = some i) :
    s.bookChecks room day req = .error (.conflict, .index i) := by
  simp only [State.bookChecks, if_neg (not_today_unset hset), hbad, Bool.false_eq_true, if_false,
    if_neg (not_today_and hpast), if_neg (not_today_shut hopen), hdup, h]

variable (hfree : s.blocker room day req.start req.stop ((s.classOf room).tailFor (!req.orders.isEmpty)) none
    (day = .today && s.reached req.start) = none)
include hfree

theorem State.bookChecks_noPlace {code : Code} (h : s.allocate room day req.orders.length = .error code) :
    s.bookChecks room day req = .error (code, .none) := by
  simp only [State.bookChecks, if_neg (not_today_unset hset), hbad, Bool.false_eq_true, if_false,
    if_neg (not_today_and hpast), if_neg (not_today_shut hopen), hdup, hfree, h]

theorem State.bookChecks_passed {p : Place} (h : s.allocate room day req.orders.length = .ok p) :
    s.bookChecks room day req = .ok p := by
  simp only [State.bookChecks, if_neg (not_today_unset hset), hbad, Bool.false_eq_true, if_false,
    if_neg (not_today_and hpast), if_neg (not_today_shut hopen), hdup, hfree, h]

end

/-! ## BOOK taken -/

section

variable (h : s.accepts .book tag)
include h

/-- A BOOK for a room goes on to a catch-up, to its form and to its checks. -/
theorem exec_book (hroom : room < 48) : exec (.book tag room req) s =
    .next (afterCatchUp (.book tag room req) (.book tag room req) s (fun t =>
      match bookReqOk req, dayOf req.day with
      | true, some day =>
        match t.bookChecks room day req with
        | .error (code, body) => t.reply .book tag code body
        | .ok p => (t.makeBooking room day req p).reply .book tag .accepted (.index p.index)
      | _, _ => t.reply .book tag .badMessage .none) (s.taken (.book tag room req) .book tag)).sent := by
  show execBook tag room req s = _
  rw [execBook, serve_accepts h, if_neg (Nat.not_le.2 hroom), State.settled_of_atRest h.1] <;> rfl

theorem exec_book_waits (hroom : room < 48) (hcatch : s.catchUp = true) : exec (.book tag room req) s =
    .next { s.taken (.book tag room req) .book tag with
      due := s.holdBack (.book tag room req) (.book tag room req) }.sent := by
  rw [exec_book h hroom, afterCatchUp_waits ((catchUp_taken rfl).trans hcatch)]

theorem exec_book_badForm (hroom : room < 48) (hcatch : s.catchUp = false) (hok : bookReqOk req = false) :
    exec (.book tag room req) s = .next (s.replies (.book tag room req) .book tag .badMessage .none) := by
  rw [exec_book h hroom, afterCatchUp_idle ((catchUp_taken rfl).trans hcatch)]
  simp only [hok, State.replies]

variable (hroom : room < 48) (hcatch : s.catchUp = false) (hok : bookReqOk req = true) (hday : dayOf req.day = some day)
include hroom hcatch hok hday

theorem exec_book_refused {code : Code} {body : Body} (hc : s.bookChecks room day req = .error (code, body)) :
    exec (.book tag room req) s = .next (s.replies (.book tag room req) .book tag code body) := by
  rw [exec_book h hroom, afterCatchUp_idle ((catchUp_taken rfl).trans hcatch)]
  simp only [hok, hday, State.taken_bookChecks.trans hc, State.replies]

theorem exec_book_made {p : Place} (hc : s.bookChecks room day req = .ok p) : exec (.book tag room req) s =
    .next (((s.taken (.book tag room req) .book tag).makeBooking room day req p).reply .book tag .accepted
      (.index p.index)).sent := by
  rw [exec_book h hroom, afterCatchUp_idle ((catchUp_taken rfl).trans hcatch)]
  simp only [hok, hday, State.taken_bookChecks.trans hc]

end

/-- Settles O17: by the first check of R45 that fails. -/
theorem bookRefusalsInOrder : Obligations.BookRefusalsInOrder := by
  intro s tag room req c tail refused h hroom
  have htail : (s.classOf room).tailFor (!req.orders.isEmpty) = tail := RoomClass.tailFor_eq _ _
  refine ⟨exec_book_badForm h hroom, exec_book_waits h hroom, fun day hok hday hcatch => ?_⟩
  have refuses : ∀ {code body}, s.bookChecks room day req = .error (code, body) → refused code body :=
    exec_book_refused h hroom hcatch hok hday
  refine ⟨fun hd hset => refuses (State.bookChecks_noTime hd hset), fun hset =>
    ⟨fun hbad => refuses (State.bookChecks_badWindow hset hbad), fun hbad =>
    ⟨fun hd hpast => refuses (State.bookChecks_past hset hbad hd hpast), fun hpast =>
    ⟨fun hd hshut => refuses (State.bookChecks_roomClosed hset hbad hpast hd hshut), fun hopen =>
    ⟨fun hdup => refuses (State.bookChecks_duplicateId hset hbad hpast hopen hdup), fun hdup =>
    ⟨fun i hc => ?conflict, fun hc hd hdue i r hcur => ?current, fun code hc hcur ha => ?noPlace⟩⟩⟩⟩⟩⟩
  case conflict =>
    rw [← htail] at hc
    exact refuses (State.bookChecks_conflict hset hbad hpast hopen hdup (State.blocker_conflict hc))
  case current =>
    rw [← htail] at hc
    exact refuses (State.bookChecks_conflict hset hbad hpast hopen hdup
      (State.blocker_current hc (by rw [hdue, decide_eq_true hd]; rfl) hcur))
  case noPlace =>
    rw [← htail] at hc
    refine refuses (State.bookChecks_noPlace hset hbad hpast hopen hdup (State.blocker_none hc fun hdue => ?_) ha)
    obtain ⟨hd, hr⟩ := Bool.and_eq_true_iff.1 hdue
    exact hcur (of_decide_eq_true hd) hr

end Sys2Proof.Machine
end

section
/-! PROOFS. The record and the orders of a BOOK (R47), and what the test of some orders' windows leaves (R93). -/

namespace Sys2Proof.Machine

variable {s : State}

/-! ## Windows tested (R93) -/

/-- An order after tests of windows: as it was, or QUEUED. -/
def Order.Tested (x y : Order) : Prop := y = x ∨ y = { x with state := .queued }

theorem Order.Tested.trans {x y z : Order} (hxy : x.Tested y) (hyz : y.Tested z) : x.Tested z := by
  rcases hxy with rfl | rfl
  · exact hyz
  · rcases hyz with rfl | rfl
    · exact .inr rfl
    · exact .inr rfl

/-- Tests of windows reach orders and dispatch queues alone, and make no more of an order than to queue it. -/
structure State.Tested (s t : State) : Prop where
  frame : t = { s with orders := t.orders, pantries := t.pantries }
  orders : ∀ x ∈ s.orders, ∃ y ∈ t.orders, x.Tested y

theorem State.Tested.refl (s : State) : s.Tested s := ⟨rfl, fun x hx => ⟨x, hx, .inl rfl⟩⟩

theorem State.Tested.trans {s t u : State} (hst : s.Tested t) (htu : t.Tested u) : s.Tested u where
  frame := by rw [htu.frame, hst.frame]
  orders x hx := by
    obtain ⟨y, hy, hxy⟩ := hst.orders x hx
    obtain ⟨z, hz, hyz⟩ := htu.orders y hy
    exact ⟨z, hz, hxy.trans hyz⟩

theorem State.enqueue_tested (o : Order) : s.Tested (s.enqueue o) where
  frame := rfl
  orders x hx := by
    refine ⟨if x.id = o.id then { x with state := .queued } else x, List.mem_map_of_mem hx, ?_⟩
    split
    · exact .inr rfl
    · exact .inl rfl

theorem State.testWindow_tested (j : Nat) (id : OrderId) : s.Tested (s.testWindow j id) := by
  cases ho : s.order id with
  | none => rw [State.testWindow_none ho]; exact .refl s
  | some o =>
    by_cases hw : s.opensAt j o
    · rw [State.testWindow_opens ho hw]; exact State.enqueue_tested o
    · rw [State.testWindow_waits ho hw]; exact .refl s

theorem State.testNow_tested (id : OrderId) : s.Tested (s.testNow id) := by
  unfold State.testNow
  split
  · exact State.testWindow_tested _ id
  · exact .refl s

/-! ## The record and the orders (R47) -/

section

variable {room : Nat} {day : Day} {req : BookReq} {p : Place}

/-- The state with a BOOK's record and its orders, their windows not yet tested. -/
def State.booked (s : State) (room : Nat) (day : Day) (req : BookReq) (p : Place) : State :=
  { s.create p (s.newReservation room day req) with
    orders := (s.create p (s.newReservation room day req)).orders ++
      req.orders.map (s.newOrder day p.index) }

theorem State.makeBooking_eq : s.makeBooking room day req p =
    req.orders.foldl (fun t o => t.testNow o.id) (s.booked room day req p) := rfl

theorem State.makeBooking_tested : (s.booked room day req p).Tested (s.makeBooking room day req p) := by
  rw [State.makeBooking_eq]
  exact foldl_frame State.Tested State.Tested.refl State.Tested.trans (fun t (o : OrderReq) => State.testNow_tested o.id) _ _

theorem State.res_makeBooking (j : Nat) : (s.makeBooking room day req p).res j =
    (s.create p (s.newReservation room day req)).res j := by
  rw [State.makeBooking_tested.frame]; rfl

theorem State.dayList_makeBooking (r : Nat) (d : Day) : (s.makeBooking room day req p).dayList r d =
    (s.create p (s.newReservation room day req)).dayList r d := by
  rw [State.makeBooking_tested.frame]; rfl

/-- A BOOK keeps the clock, the evidence, the lines and the latches. -/
theorem State.makeBooking_keeps : (s.makeBooking room day req p).clock = s.clock ∧
    (s.makeBooking room day req p).evidence = s.evidence ∧ (s.makeBooking room day req p).lines = s.lines ∧
    (s.makeBooking room day req p).latches = s.latches := by
  rw [State.makeBooking_tested.frame, State.booked, State.create_frame]
  exact ⟨rfl, rfl, rfl, rfl⟩

/-- Each order of a BOOK is in the pool, HELD or QUEUED. -/
theorem State.order_makeBooking {o : OrderReq} (ho : o ∈ req.orders) : ∃ x ∈ (s.makeBooking room day req p).orders,
    x.id = o.id ∧ x.res = p.index ∧ x.pantry = o.pantry ∧ x.deliverBy = o.deliverBy ∧
      x.cutoff = min o.cutoff o.deliverBy ∧ x.lines = o.lines ∧ (x.state = .held ∨ x.state = .queued) := by
  obtain ⟨x, hx, htested⟩ := State.makeBooking_tested.orders (s.newOrder day p.index o)
    (List.mem_append_right _ (List.mem_map_of_mem ho))
  refine ⟨x, hx, ?_⟩
  rcases htested with rfl | rfl
  · exact ⟨rfl, rfl, rfl, rfl, rfl, rfl, .inl rfl⟩
  · exact ⟨rfl, rfl, rfl, rfl, rfl, rfl, .inr rfl⟩

end

/-- Settles O16: candidates and their order, the place, what a reclaim leaves, and the record that a BOOK makes. -/
theorem bookMakesItsRecord : Obligations.BookMakesItsRecord := by
  refine ⟨fun s i => ?candidate, fun s is => ⟨State.earliest_none, fun i h => ?earliest⟩, fun s room day n => ?place,
    fun s i r hr => ?reclaim, fun s tag room req day p => ?made⟩
  case candidate =>
    rw [State.isCandidate_iff]
    simp only [State.holdsRecord_eq_false]
    rfl
  case earliest =>
    obtain ⟨hi, hc⟩ := State.earliest_mem h
    refine ⟨hi, hc, fun j hj hcj hne a b ha hb hsa hsb => ?_⟩
    have hle := State.earliest_least h hj hcj
    rw [State.age_eq ha, State.age_eq hb] at hle
    have hba := s.daysBack_le a
    have hbb := s.daysBack_le b
    refine (closed_before_of_age hsb (State.index_of_isCandidate hcj) hne hle).imp (fun hlt => ?_)
      (And.imp_left fun heq => ?_)
    · show s.daysBack b < s.daysBack a
      omega
    · show s.daysBack a = s.daysBack b
      omega
  case place =>
    refine ⟨fun hlen he => State.allocate_error (State.placeIn_listFull hlen he),
      fun hlen i he => State.allocate_gives (State.placeIn_list hlen he) rfl,
      fun hlen i hi hfree hbelow => State.allocate_gives (State.placeIn_free hlen
        (State.firstFree_of_least hi hfree hbelow)) rfl,
      fun hlen hfull he => State.allocate_error (State.placeIn_poolFull hlen (State.firstFree_of_full hfull) he),
      fun hlen hfull i he => State.allocate_gives (State.placeIn_pool hlen (State.firstFree_of_full hfull) he) rfl⟩
  case reclaim =>
    refine ⟨fun x => State.create_reclaim x, State.res_freeRecord_same, fun j hj => State.res_freeRecord_other hj,
      State.dayList_freeRecord hr, fun room hroom => State.room_freeRecord_other hr hroom, fun id =>
      ⟨fun hid => (State.order_freeRecord hr id).trans (if_pos hid),
        fun hid => (State.order_freeRecord hr id).trans (if_neg hid)⟩, fun d => ?drop, ?_⟩
    case drop => exact State.drop_freeRecord hr d
    rw [State.freeRecord_frame]
    exact ⟨rfl, rfl, rfl⟩
  intro tail h hcatch hroom hok hday hset hbad hpast hopen hdup hconf hcur ha t u
  have htail : (s.classOf room).tailFor (!req.orders.isEmpty) = tail := RoomClass.tailFor_eq _ _
  have hfree : s.blocker room day req.start req.stop ((s.classOf room).tailFor (!req.orders.isEmpty)) none
      (day = .today && s.reached req.start) = none := by
    rw [htail]
    refine State.blocker_none hconf fun hdue => ?_
    obtain ⟨hd, hr⟩ := Bool.and_eq_true_iff.1 hdue
    exact hcur (of_decide_eq_true hd) hr
  have hpassed := State.bookChecks_passed hset hbad hpast hopen hdup hfree ha
  have hdayNext : day ≠ .past := by
    rintro rfl
    unfold dayOf at hday
    split at hday <;> cases hday
  have hrecord : t.newReservation room day req =
      { room := room, day := day, state := if day = .today ∧ s.reached req.start = true then .due else .booked
        start := req.start, stop := req.stop, tail := tail, origin := .server, serverId := some req.serverId
        organiser := req.organiser, early := false, checkIn := none, endReason := none, closedAt := none, occupied := 0
        orders := req.orders.map OrderReq.id, cateringFault := false, version := 0, dirty := false } := by
    rw [State.newReservation, State.taken_reached, State.taken_classOf, htail]
  refine ⟨exec_book_made h hroom hcatch hok hday hpassed, ?record, ?listed, fun o ho => State.order_makeBooking ho,
    fun j hj hr => ?others, ?keeps⟩
  case record =>
    rw [State.res_makeBooking, hrecord]
    exact State.res_create_same (State.allocate_index ha)
  case listed =>
    rw [State.dayList_makeBooking, hrecord]
    exact State.mem_create hroom rfl hdayNext
  case others => rw [State.res_makeBooking, State.res_create_other hj hr, State.taken_res]
  case keeps =>
    obtain ⟨hclock, hev, hlines, hlatches⟩ :=
      State.makeBooking_keeps (s := t) (room := room) (day := day) (req := req) (p := p)
    exact ⟨hclock.trans (State.taken_clock ..), hev.trans (State.taken_evidence ..),
      hlines.trans (State.taken_lines ..), hlatches.trans (State.taken_latches ..)⟩

end Sys2Proof.Machine
end

section
/-! PROOFS. References to records (R48) and WITHDRAW (R51). -/

namespace Sys2Proof.Machine

variable {s : State} {tag : Tag}

/-! ## What a reference names (R48) -/

section

variable {i : Nat} {r : Reservation}

theorem State.resolve_free (h : s.res i = none) (room : Option Nat) : s.resolve room (.index i) = .error .notFound := by
  rw [State.resolve, h]

theorem State.resolve_index (h : s.res i = some r) : s.resolve none (.index i) = .ok (i, r) := by
  rw [State.resolve, h]

theorem State.resolve_index_room (h : s.res i = some r) (room : Nat) : s.resolve (some room) (.index i) =
    if r.room = room then .ok (i, r) else .error .notFound := by
  rw [State.resolve, h]

variable {room n : Nat} {id : ServerId} {day : Day}

/-- A record of a day list that a server ID names. -/
def State.named (s : State) (room : Nat) (day : Day) (id : ServerId) (i : Nat) (r : Reservation) : Prop :=
  i ∈ s.dayList room day ∧ s.res i = some r ∧ r.serverId = some id

/-- The records of a day list that a server ID names, in list order. -/
def State.namedIn (s : State) (room : Nat) (day : Day) (id : ServerId) : List (Nat × Reservation) :=
  (s.dayList room day).filterMap fun i =>
    match s.res i with
    | some r => if r.serverId = some id then some (i, r) else none
    | none => none

theorem State.mem_namedIn : (i, r) ∈ s.namedIn room day id ↔ s.named room day id i r := by
  rw [State.namedIn, List.mem_filterMap]
  constructor
  · rintro ⟨j, hj, hx⟩
    cases hres : s.res j with
    | none => rw [hres] at hx; cases hx
    | some x =>
      simp only [hres] at hx
      split at hx
      next hid =>
        cases hx
        exact ⟨hj, hres, hid⟩
      next => cases hx
  · rintro ⟨hi, hres, hid⟩
    exact ⟨i, hi, by simp only [hres, if_pos hid]⟩

theorem State.resolve_serverId (hday : dayOf n = some day) : s.resolve (some room) (.serverId id n) =
    if s.namedIn room day id = [] then .error .notFound
    else
      match (s.namedIn room day id).find? fun x => x.2.state.live with
      | some x => .ok x
      | none => .error .badState := by
  simp only [State.resolve, hday, State.namedIn] <;> rfl

variable (hday : dayOf n = some day)
include hday

theorem State.resolve_unnamed (h : ∀ i r, ¬s.named room day id i r) :
    s.resolve (some room) (.serverId id n) = .error .notFound := by
  rw [State.resolve_serverId hday, if_pos]
  exact List.eq_nil_iff_forall_not_mem.2 fun x hx => h x.1 x.2 (State.mem_namedIn.1 hx)

theorem State.resolve_terminal (hn : s.named room day id i r)
    (h : ∀ j x, s.named room day id j x → x.state.live = false) :
    s.resolve (some room) (.serverId id n) = .error .badState := by
  have hfind : (s.namedIn room day id).find? (fun x => x.2.state.live) = none := by
    rw [List.find?_eq_none]
    intro x hx
    rw [h x.1 x.2 (State.mem_namedIn.1 hx)]
    exact Bool.false_ne_true
  rw [State.resolve_serverId hday, if_neg (List.ne_nil_of_mem (State.mem_namedIn.2 hn)), hfind]

theorem State.resolve_live (hn : s.named room day id i r) (hl : r.state.live = true)
    (h : ∀ j x, s.named room day id j x → x.state.live = true → j = i) :
    s.resolve (some room) (.serverId id n) = .ok (i, r) := by
  have hfind : (s.namedIn room day id).find? (fun x => x.2.state.live) = some (i, r) := by
    cases hf : (s.namedIn room day id).find? (fun x => x.2.state.live) with
    | none => exact absurd hl (List.find?_eq_none.1 hf (i, r) (State.mem_namedIn.2 hn))
    | some x =>
      obtain ⟨j, x⟩ := x
      have hx := State.mem_namedIn.1 (List.mem_of_find?_eq_some hf)
      obtain rfl := h j x hx (List.find?_some (p := fun x : Nat × Reservation => x.2.state.live) hf)
      rw [Option.some.inj (hx.2.1.symm.trans hn.2.1)]
  rw [State.resolve_serverId hday, if_neg (List.ne_nil_of_mem (State.mem_namedIn.2 hn)), hfind]

end

theorem dayOf_today {n : Nat} : dayOf n = some .today ↔ n = 0 := by
  unfold dayOf
  split <;> simp_all

theorem dayOf_next {n : Nat} : dayOf n = some .next ↔ n = 1 := by
  unfold dayOf
  split <;> simp_all

theorem dayOf_none {n : Nat} : dayOf n = none ↔ 1 < n := by
  match n with
  | 0 => simp [dayOf]
  | 1 => simp [dayOf]
  | n + 2 => simp [dayOf]

/-! ## A request that names a record (R48, R183) -/

/-- A request with a reference in FLOOR form that names no day list. -/
def unreadRef (room : Option Nat) (ref : Ref) : Prop := room = none ∧ ∃ id day, ref = .serverId id day ∧ 1 < day

theorem refEncoded_eq_false {ref : Ref} : refEncoded ref = false ↔ ∃ id day, ref = .serverId id day ∧ 1 < day := by
  cases ref with
  | index i => simp [refEncoded]
  | serverId id day => simp [refEncoded]

section

variable {c : Instr} {k : MsgKind} {room : Option Nat} {ref : Ref} {act : State → State} (h : s.accepts k tag)
  (hm : room = none → s.restart = none ∧ s.inTurn c)
  (hfloor : room = none → exec c s = run c s (manage k tag c s.settled (refEncoded ref) act))
  (hroom : ∀ m, room = some m → exec c s = run c s (serve k tag c act))
include h hm hfloor hroom

theorem exec_naming (hread : ¬unreadRef room ref) : exec c s = .next (act (s.taken c k tag)).sent := by
  cases room with
  | none =>
    obtain ⟨hr, ht⟩ := hm rfl
    have hform : refEncoded ref = true := by
      by_contra hf
      exact hread ⟨rfl, refEncoded_eq_false.1 (Bool.eq_false_iff.2 hf)⟩
    exact exec_manages ⟨h, hr, ht⟩ (hfloor rfl) hform
  | some m => rw [hroom m rfl, serve_accepts h]

omit hroom in
theorem exec_unread (hread : unreadRef room ref) : exec c s = .next (s.replies c k tag .badMessage .none) := by
  obtain ⟨hnone, hform⟩ := hread
  rw [hfloor hnone, State.settled_of_atRest h.1, manage_badMessage h (hm hnone).2 _ (refEncoded_eq_false.2 hform)]

end

/-! ## WITHDRAW (R51) -/

section

variable {room : Option Nat} {ref : Ref} {i : Nat} {r : Reservation}

theorem State.taken_resolve {c : Instr} {k : MsgKind} : (s.taken c k tag).resolve room ref = s.resolve room ref := by
  rw [State.taken_eq]; rfl

theorem State.takeWithdraw_unresolved {code : Code} (h : s.resolve room ref = .error code) :
    s.takeWithdraw tag room ref = s.reply .withdraw tag code .none := by
  rw [State.takeWithdraw, h]

theorem State.takeWithdraw_over (h : s.resolve room ref = .ok (i, r)) (hover : r.state.live = false ∨ r.day = .past) :
    s.takeWithdraw tag room ref = s.reply .withdraw tag .badState .none := by
  rw [State.takeWithdraw, h]
  exact if_pos (hover.imp_left fun hl => by rw [hl]; rfl)

theorem State.takeWithdraw_live (h : s.resolve room ref = .ok (i, r)) (hl : r.state.live = true) (hd : r.day ≠ .past)
    (hr : s.res i = some r) : s.takeWithdraw tag room ref =
      (s.finish i .cancelled .withdrawn { day := s.clock.day, slot := s.curSlot.getD 0 } false none).reply .withdraw tag
        .ok (.withdrawn i (r.version + 1)) := by
  have hno : ¬((!r.state.live) = true ∨ r.day = .past) := by
    rw [hl]
    exact not_or.2 ⟨Bool.false_ne_true, hd⟩
  rw [State.takeWithdraw, h]
  simp only [if_neg hno, State.versionOf, State.res_finish_same _ _ _ _ hr, State.closedNow]
  rfl

end

/-- The room in which a WITHDRAW comes decides who takes it. -/
theorem exec_withdraw (h : s.accepts .withdraw tag) (room : Option Nat) (ref : Ref)
    (hm : room = none → s.restart = none ∧ s.inTurn (.withdraw tag room ref)) (hread : ¬unreadRef room ref) :
    exec (.withdraw tag room ref) s = .next (afterCatchUp (.withdraw tag room ref) (.withdraw tag room ref) s.settled
      (inRange .withdraw tag (refFormOk room ref) fun t => t.takeWithdraw tag room ref)
      (s.taken (.withdraw tag room ref) .withdraw tag)).sent := by
  refine exec_naming h hm (fun hnone => ?_) (fun m hsome => ?_) hread
  · subst hnone; rfl
  · subst hsome; rfl

theorem not_unread_of_formOk {room : Option Nat} {ref : Ref} (h : refFormOk room ref = true) :
    ¬unreadRef room ref := by
  rintro ⟨rfl, id, day, rfl, -⟩
  exact Bool.false_ne_true h

/-- Settles O20: by the reference, its form, and the record that it names. -/
theorem withdrawCancelsItsRecord : Obligations.WithdrawCancelsItsRecord := by
  refine ⟨fun s i => ⟨State.resolve_free, fun r hr => ⟨State.resolve_index hr,
      (State.resolve_index_room hr _).trans (if_pos rfl),
      fun room hne => (State.resolve_index_room hr room).trans (if_neg hne.symm)⟩⟩,
    fun s room n id day hday => ⟨State.resolve_unnamed hday, fun i r hn => State.resolve_terminal hday hn,
      fun i r hn => State.resolve_live hday hn⟩,
    fun room i => rfl, fun room id n => rfl, fun n => ⟨dayOf_today, dayOf_next, dayOf_none⟩, ?_⟩
  intro s tag room ref c t h hm unread
  have hwaits : waitsOut c = true := by cases room <;> rfl
  have taken : ¬unreadRef room ref → exec c s = .next (afterCatchUp c c s.settled
      (inRange .withdraw tag (refFormOk room ref) fun t => t.takeWithdraw tag room ref) t).sent :=
    exec_withdraw h room ref hm
  have takes : s.catchUp = false → refFormOk room ref = true →
      exec c s = .next (t.takeWithdraw tag room ref).sent := by
    intro hcatch hok
    rw [taken (not_unread_of_formOk hok), afterCatchUp_idle ((catchUp_taken hwaits).trans hcatch), hok, inRange_good]
  refine ⟨?bad, fun hread hcatch => ?waits, fun hcatch code hok hres => ?unresolved, fun i r hcatch hok hres hi hr =>
    ⟨fun hterminal => ?terminal, fun hl hd => ?live⟩⟩
  case bad =>
    have hfloor : room = none → exec c s = run c s (manage .withdraw tag c s.settled (refEncoded ref)
        (afterCatchUp c c s.settled
          (inRange .withdraw tag (refFormOk room ref) fun t => t.takeWithdraw tag room ref))) := by
      intro hnone
      subst hnone
      rfl
    rintro (hread | ⟨hcatch, hno⟩)
    · exact exec_unread h hm hfloor hread
    · by_cases hread : unreadRef room ref
      · exact exec_unread h hm hfloor hread
      · rw [taken hread, afterCatchUp_idle ((catchUp_taken hwaits).trans hcatch), hno, inRange_bad, State.replies]
  case waits =>
    rw [taken hread, afterCatchUp_waits ((catchUp_taken hwaits).trans hcatch), State.settled_of_atRest h.1]
  case unresolved =>
    rw [takes hcatch hok, State.takeWithdraw_unresolved (State.taken_resolve.trans hres), State.replies]
  case terminal =>
    rw [takes hcatch hok, State.takeWithdraw_over (State.taken_resolve.trans hres) hterminal, State.replies]
  case live =>
    have hrt : t.res i = some r := (State.taken_res ..).trans hr
    have hclosed : ({ day := t.clock.day, slot := t.curSlot.getD 0 } : ClosedAt) =
        { day := s.clock.day, slot := s.curSlot.getD 0 } := by rw [State.taken_clock, State.taken_curSlot]
    obtain ⟨horders, hpantries, hclock, hev, hlines, -⟩ :=
      State.finish_keeps (s := t) (i := i) .cancelled .withdrawn { day := s.clock.day, slot := s.curSlot.getD 0 } false none
    refine ⟨?_, ?_, fun j hj => ?_, ?_, horders.trans (State.taken_orders ..), hpantries.trans (State.taken_pantries ..),
      hclock.trans (State.taken_clock ..), hev.trans (State.taken_evidence ..), hlines.trans (State.taken_lines ..)⟩
    · rw [takes hcatch hok, State.takeWithdraw_live (State.taken_resolve.trans hres) hl hd hrt, hclosed]
    · rw [State.res_finish_same _ _ _ _ hrt, Reservation.finished, Bool.or_false]
    · rw [State.res_finish_other _ _ _ _ _ hj, State.taken_res]
    · rw [State.finish_due _ _ _ _ hrt]
      by_cases ho : r.orders = []
      · simp [ho]
      · simp [ho]

end Sys2Proof.Machine
end

section
/-! PROOFS. The resulting window of an ALTER and its checks in order (R49). -/

namespace Sys2Proof.Machine

variable {s : State} {i : Nat} {r : Reservation} {req : AlterReq}

/-! ## The resulting window -/

theorem State.alterWindow_fst : (s.alterWindow r req).1 = req.newStart.getD r.start := rfl

/-- The end of a running record that would lie before the next slot becomes the next slot. -/
theorem State.alterWindow_snd_passed {now : Nat} (hnow : s.curSlot = some now) (hr : r.state = .due ∨ r.state = .inUse)
    (hle : req.newEnd.getD r.stop ≤ now) : (s.alterWindow r req).2 = now + 1 := by
  simp only [State.alterWindow, hnow, if_pos (And.intro hr hle)]

theorem State.alterWindow_snd_ahead {now : Nat} (hnow : s.curSlot = some now)
    (h : ¬(r.state = .due ∨ r.state = .inUse) ∨ now < req.newEnd.getD r.stop) :
    (s.alterWindow r req).2 = req.newEnd.getD r.stop := by
  have hno : ¬((r.state = .due ∨ r.state = .inUse) ∧ req.newEnd.getD r.stop ≤ now) :=
    fun hc => h.elim (fun hr => hr hc.1) fun hlt => Nat.not_le.2 hlt hc.2
  simp only [State.alterWindow, hnow, if_neg hno]

theorem State.alterWindow_snd_unset (h : s.curSlot = none) : (s.alterWindow r req).2 = req.newEnd.getD r.stop := by
  simp only [State.alterWindow, h]

/-! ## The checks in order -/

/-- Every order of a record is HELD. -/
def State.allHeld (s : State) (r : Reservation) : Prop := ∀ id ∈ r.orders, ∃ o, s.order id = some o ∧ o.state = .held

theorem State.not_allHeld :
    (r.orders.any fun id => decide (((s.order id).map Order.state) ≠ some .held)) = true ↔ ¬s.allHeld r := by
  simp [State.allHeld]

/-- The second check of R49 fails. -/
def State.alterBarred (s : State) (r : Reservation) (req : AlterReq) : Prop :=
  (!r.state.live) = true ∨ r.day = .past ∨ (req.newStart.getD r.start ≠ r.start ∧ r.state ≠ .booked) ∨
    (req.newStart.getD r.start ≠ r.start ∧
      (r.orders.any fun id => decide (((s.order id).map Order.state) ≠ some .held)) = true)

theorem State.alterBarred_iff : s.alterBarred r req ↔
    r.state.live = false ∨ r.day = .past ∨ (req.newStart.getD r.start ≠ r.start ∧ (r.state ≠ .booked ∨ ¬s.allHeld r)) := by
  unfold State.alterBarred
  rw [State.not_allHeld, Bool.not_eq_true', and_or_left]

theorem State.alterChecks_noTime (hd : r.day = .today) (h : s.clock.isSet = false) :
    s.alterChecks i r req = .error (.noTime, .none) := if_pos ⟨hd, by rw [h]; rfl⟩

section

variable (hset : r.day = .today → s.clock.isSet = true)
include hset

theorem State.alterChecks_badState (h : s.alterBarred r req) : s.alterChecks i r req = .error (.badState, .none) := by
  unfold State.alterBarred at h
  simp only [State.alterChecks, if_neg (not_today_unset hset), if_pos h]

variable (hopen : ¬s.alterBarred r req)
include hopen

theorem State.alterChecks_badWindow
    (h : 287 < (s.alterWindow r req).1 ∨ 288 < (s.alterWindow r req).2 ∨
      (s.alterWindow r req).2 ≤ (s.alterWindow r req).1) : s.alterChecks i r req = .error (.badWindow, .none) := by
  unfold State.alterBarred at hopen
  simp only [State.alterChecks, if_neg (not_today_unset hset), if_neg hopen, if_pos h]

variable (hw : ¬(287 < (s.alterWindow r req).1 ∨ 288 < (s.alterWindow r req).2 ∨
  (s.alterWindow r req).2 ≤ (s.alterWindow r req).1))
include hw

theorem State.alterChecks_past (hb : r.state = .booked ∧ r.day = .today) (h : s.reached (s.alterWindow r req).2 = true) :
    s.alterChecks i r req = .error (.past, .none) := by
  unfold State.alterBarred at hopen
  simp only [State.alterChecks, if_neg (not_today_unset hset), if_neg hopen, if_neg hw, if_pos (And.intro hb h)]

variable (hpast : ¬((r.state = .booked ∧ r.day = .today) ∧ s.reached (s.alterWindow r req).2 = true))
include hpast

theorem State.alterChecks_roomClosed (h : (r.state = .booked ∧ r.day = .today) ∧ (s.room r.room).service ≠ .opened ∧
    s.reached (s.alterWindow r req).1 = true) : s.alterChecks i r req = .error (.roomClosed, .none) := by
  unfold State.alterBarred at hopen
  simp only [State.alterChecks, if_neg (not_today_unset hset), if_neg hopen, if_neg hw, if_neg hpast, if_pos h]

variable (hroom : ¬((r.state = .booked ∧ r.day = .today) ∧ (s.room r.room).service ≠ .opened ∧
  s.reached (s.alterWindow r req).1 = true))
include hroom

theorem State.alterChecks_conflict {j : Nat}
    (h : s.blocker r.room r.day (s.alterWindow r req).1 (s.alterWindow r req).2 r.tail (some i)
      (r.state = .booked && r.day = .today && s.reached (s.alterWindow r req).1 &&
        decide (s.alterWindow r req ≠ (r.start, r.stop))) = some j) :
    s.alterChecks i r req = .error (.conflict, .index j) := by
  unfold State.alterBarred at hopen
  simp only [State.alterChecks, if_neg (not_today_unset hset), if_neg hopen, if_neg hw, if_neg hpast, if_neg hroom, h]

theorem State.alterChecks_passed
    (h : s.blocker r.room r.day (s.alterWindow r req).1 (s.alterWindow r req).2 r.tail (some i)
      (r.state = .booked && r.day = .today && s.reached (s.alterWindow r req).1 &&
        decide (s.alterWindow r req ≠ (r.start, r.stop))) = none) :
    s.alterChecks i r req = .ok (s.alterWindow r req) := by
  unfold State.alterBarred at hopen
  simp only [State.alterChecks, if_neg (not_today_unset hset), if_neg hopen, if_neg hw, if_neg hpast, if_neg hroom, h]

end

/-- The checks passed give the resulting window, of a record that is not PAST. -/
theorem State.alterChecks_ok {w : Nat × Nat} (h : s.alterChecks i r req = .ok w) :
    w = s.alterWindow r req ∧ r.day ≠ .past := by
  by_cases hset : r.day = .today → s.clock.isSet = true
  case neg =>
    obtain ⟨hd, hunset⟩ := Classical.not_imp.1 hset
    cases (State.alterChecks_noTime hd (Bool.eq_false_iff.2 hunset)).symm.trans h
  by_cases hbarred : s.alterBarred r req
  · cases (State.alterChecks_badState hset hbarred).symm.trans h
  have hday : r.day ≠ .past := fun hp => hbarred (.inr (.inl hp))
  by_cases hw : 287 < (s.alterWindow r req).1 ∨ 288 < (s.alterWindow r req).2 ∨
      (s.alterWindow r req).2 ≤ (s.alterWindow r req).1
  · cases (State.alterChecks_badWindow hset hbarred hw).symm.trans h
  by_cases hpast : (r.state = .booked ∧ r.day = .today) ∧ s.reached (s.alterWindow r req).2 = true
  · cases (State.alterChecks_past hset hbarred hw hpast.1 hpast.2).symm.trans h
  by_cases hroom : (r.state = .booked ∧ r.day = .today) ∧ (s.room r.room).service ≠ .opened ∧
      s.reached (s.alterWindow r req).1 = true
  · cases (State.alterChecks_roomClosed hset hbarred hw hpast hroom).symm.trans h
  cases hb : s.blocker r.room r.day (s.alterWindow r req).1 (s.alterWindow r req).2 r.tail (some i)
      (r.state = .booked && r.day = .today && s.reached (s.alterWindow r req).1 &&
        decide (s.alterWindow r req ≠ (r.start, r.stop))) with
  | some j => cases (State.alterChecks_conflict hset hbarred hw hpast hroom hb).symm.trans h
  | none => exact ⟨(Except.ok.inj ((State.alterChecks_passed hset hbarred hw hpast hroom hb).symm.trans h)).symm, hday⟩

end Sys2Proof.Machine
end

section
/-! PROOFS. What an ALTER makes of its record, its day list and its orders (R50, R93). -/

namespace Sys2Proof.Machine

variable {s : State}

/-! ## Changes that reach orders and dispatch queues alone -/

/-- A change of orders by which dispatch queues grow. -/
structure State.Queues (s t : State) : Prop where
  frame : t = { s with orders := t.orders, pantries := t.pantries }
  pantry : ∀ p, { t.pantry p with dispatch := [] } = { s.pantry p with dispatch := [] }
  grows : ∀ p, (s.pantry p).dispatch.Sublist (t.pantry p).dispatch

theorem State.Queues.refl (s : State) : s.Queues s := ⟨rfl, fun _ => rfl, fun _ => .refl _⟩

theorem State.Queues.trans {s t u : State} (hst : s.Queues t) (htu : t.Queues u) : s.Queues u where
  frame := by rw [htu.frame, hst.frame]
  pantry p := (htu.pantry p).trans (hst.pantry p)
  grows p := (hst.grows p).trans (htu.grows p)

theorem State.Queues.lead {t : State} (h : s.Queues t) (p : Nat) : (t.pantry p).lead = (s.pantry p).lead := by
  have hlead := congrArg Pantry.lead (h.pantry p)
  exact hlead

theorem State.Queues.res {t : State} (h : s.Queues t) (i : Nat) : t.res i = s.res i := by rw [h.frame]; rfl

theorem State.Queues.dayList {t : State} (h : s.Queues t) (r : Nat) (d : Day) : t.dayList r d = s.dayList r d := by
  rw [h.frame]; rfl

theorem State.Queues.curSlot {t : State} (h : s.Queues t) : t.curSlot = s.curSlot := by rw [h.frame]; rfl

theorem State.modOrder_queues (id : OrderId) (f : Order → Order) : s.Queues (s.modOrder id f) :=
  ⟨rfl, fun _ => rfl, fun _ => .refl _⟩

theorem State.pantry_beyond {p : Nat} (h : 8 ≤ p) : s.pantry p = Pantry.reset := by
  simp [State.pantry, h]

theorem State.enqueue_queues (o : Order) : s.Queues (s.enqueue o) := by
  have hsame : ∀ p, (p ≠ o.pantry ∨ 8 ≤ p) → (s.enqueue o).pantry p = s.pantry p := by
    rintro p (hne | hge)
    · exact State.pantry_enqueue_other hne
    · rw [State.pantry_beyond hge, State.pantry_beyond hge]
  refine ⟨rfl, fun p => ?_, fun p => ?_⟩
  · by_cases hp : p ≠ o.pantry ∨ 8 ≤ p
    · rw [hsame p hp]
    · obtain ⟨rfl, hlt⟩ : p = o.pantry ∧ p < 8 := by simpa using hp
      rw [State.pantry_enqueue_same hlt]
  · by_cases hp : p ≠ o.pantry ∨ 8 ≤ p
    · rw [hsame p hp]
    · obtain ⟨rfl, hlt⟩ : p = o.pantry ∧ p < 8 := by simpa using hp
      rw [State.pantry_enqueue_same hlt]
      exact sublist_insertByKey ..

theorem State.testWindow_queues (j : Nat) (id : OrderId) : s.Queues (s.testWindow j id) := by
  cases ho : s.order id with
  | none => rw [State.testWindow_none ho]; exact .refl s
  | some o =>
    by_cases hw : s.opensAt j o
    · rw [State.testWindow_opens ho hw]; exact State.enqueue_queues o
    · rw [State.testWindow_waits ho hw]; exact .refl s

theorem State.testNow_queues (id : OrderId) : s.Queues (s.testNow id) := by
  unfold State.testNow
  split
  · exact State.testWindow_queues _ id
  · exact .refl s

theorem State.order_testWindow_other {j : Nat} {id x : OrderId} (h : x ≠ id) :
    (s.testWindow j id).order x = s.order x := by
  cases ho : s.order id with
  | none => rw [State.testWindow_none ho]
  | some o =>
    by_cases hw : s.opensAt j o
    · rw [State.testWindow_opens ho hw, State.order_enqueue, if_neg (by rw [State.order_id ho]; exact h)]
    · rw [State.testWindow_waits ho hw]

theorem State.order_testNow_other {id x : OrderId} (h : x ≠ id) : (s.testNow id).order x = s.order x := by
  unfold State.testNow
  split
  · exact State.order_testWindow_other h
  · rfl

/-! ## A HELD order moved with its reservation (R50) -/

section

variable {day : Day} {old new : Nat} {id : OrderId} {o : Order}

/-- An order with a deliver-by slot, its cutoff moved with its reservation's start. -/
def State.delivers (s : State) (day : Day) (old new d : Nat) (o : Order) : Order :=
  { o with deliverBy := d, cutoff := moveSlot o.cutoff old new, late := day = .today && s.reached d }

theorem State.order_delivers (d : Nat) (x : OrderId) : (s.modOrder id (s.delivers day old new d)).order x =
    if x = id then (s.order x).map (s.delivers day old new d) else s.order x :=
  State.order_modOrder id x _ fun _ => rfl

/-- A HELD order as its reservation's start moves, before its window is tested. -/
def State.movedOrder (s : State) (day : Day) (old new : Nat) (o : Order) : Order :=
  s.delivers day old new (moveSlot o.deliverBy old new) o

theorem State.moveOrder_held (h : s.order id = some o) (hst : o.state = .held) : s.moveOrder day old new id =
    (s.modOrder id (s.delivers day old new (moveSlot o.deliverBy old new))).testNow id := by
  rw [State.moveOrder, h]
  exact if_pos hst

theorem State.moveOrder_other (h : ∀ o, s.order id = some o → o.state ≠ .held) : s.moveOrder day old new id = s := by
  rw [State.moveOrder]
  cases ho : s.order id with
  | none => rfl
  | some o => exact if_neg (h o ho)

theorem State.moveOrder_queues : s.Queues (s.moveOrder day old new id) := by
  cases ho : s.order id with
  | none => rw [State.moveOrder_other (by simp [ho])]; exact .refl s
  | some o =>
    by_cases hst : o.state = .held
    · rw [State.moveOrder_held ho hst]
      exact (State.modOrder_queues id _).trans (State.testNow_queues id)
    · rw [State.moveOrder_other fun x hx => Option.some.inj (ho.symm.trans hx) ▸ hst]; exact .refl s

theorem State.order_moveOrder_other {x : OrderId} (h : x ≠ id) : (s.moveOrder day old new id).order x = s.order x := by
  cases ho : s.order id with
  | none => rw [State.moveOrder_other (by simp [ho])]
  | some o =>
    by_cases hst : o.state = .held
    · rw [State.moveOrder_held ho hst, State.order_testNow_other h, State.order_delivers, if_neg h]
    · rw [State.moveOrder_other fun x hx => Option.some.inj (ho.symm.trans hx) ▸ hst]

/-- A moved order whose window has opened is queued; any other stays HELD. -/
theorem State.order_moveOrder_same (h : s.order id = some o) (hst : o.state = .held) (hday : s.orderDay o = some day) :
    let d := moveSlot o.deliverBy old new
    let opened : Prop := day = .today ∧ ∃ now, s.curSlot = some now ∧ d - (s.pantry o.pantry).lead ≤ now
    let t := s.moveOrder day old new id
    (opened → t.order id = some { s.movedOrder day old new o with state := .queued } ∧
      (o.pantry < 8 → id ∈ (t.pantry o.pantry).dispatch)) ∧
    (¬opened → t.order id = some (s.movedOrder day old new o)) := by
  intro d opened t
  obtain ⟨m, hm⟩ : ∃ m, m = s.modOrder id (s.delivers day old new d) := ⟨_, rfl⟩
  have ht : t = m.testNow id := by rw [hm]; exact State.moveOrder_held h hst
  have hmo : m.order id = some (s.movedOrder day old new o) := by
    rw [hm, State.order_delivers, if_pos rfl, h]; rfl
  have hslot : m.curSlot = s.curSlot := by rw [hm]; rfl
  have hday' : m.orderDay (s.movedOrder day old new o) = some day := by rw [hm]; exact hday
  have hlead : (m.pantry (s.movedOrder day old new o).pantry).lead = (s.pantry o.pantry).lead := by rw [hm]; rfl
  have hid : (s.movedOrder day old new o).id = id := State.order_id hmo
  constructor
  · rintro ⟨rfl, now, hnow, hle⟩
    have hopens : m.opensAt now (s.movedOrder .today old new o) := ⟨hst, hday', by rw [hlead]; exact hle⟩
    have ht' : t = m.enqueue (s.movedOrder .today old new o) := by
      rw [ht, State.testNow, hslot, hnow]; exact State.testWindow_opens hmo hopens
    refine ⟨?_, fun hp => ?_⟩
    · rw [ht', State.order_enqueue, hid, if_pos rfl, hmo]; rfl
    · rw [ht']
      refine (congrArg (id ∈ ·) (congrArg Pantry.dispatch (State.pantry_enqueue_same (s := m)
        (o := s.movedOrder .today old new o) hp))).mpr ?_
      exact (mem_insertByKey ..).2 (.inl hid.symm)
  · intro hno
    have hstays : t = m := by
      rw [ht, State.testNow, hslot]
      cases hnow : s.curSlot with
      | none => rfl
      | some now =>
        refine State.testWindow_waits hmo fun hopens => hno ?_
        obtain ⟨-, hd, hle⟩ := hopens
        rw [hlead] at hle
        exact ⟨Option.some.inj (hday'.symm.trans hd), now, hnow, hle⟩
    rw [hstays, hmo]

end

/-! ## An ALTER applied (R50) -/

section

variable {i : Nat} {r : Reservation} {w : Nat × Nat}

/-- A record as an ALTER leaves it. -/
def State.alteredRecord (s : State) (r : Reservation) (w : Nat × Nat) : Reservation :=
  { r with
    start := w.1, stop := w.2, early := if w.1 = r.start then r.early else false
    state := if r.state = .booked ∧ r.day = .today ∧ s.reached w.1 = true then .due else r.state }

/-- The state in which an ALTER's record has its window, at its old place in its day list. -/
def State.altered (s : State) (i : Nat) (r : Reservation) (w : Nat × Nat) : State :=
  s.changeRes i fun x =>
    { x with start := w.1, stop := w.2, early := if w.1 ≠ r.start then false else x.early
             state := if x.state = .booked ∧ x.day = .today ∧ s.reached w.1 then .due else x.state }

/-- A record at its new place in its day list. -/
def State.relisted (s : State) (i : Nat) (r : Reservation) (start : Nat) : State :=
  (s.modList r.room r.day fun l => l.filter fun j => decide (j ≠ i)).enterList r.room r.day i start

theorem State.applyAlter_same (h : w = (r.start, r.stop)) : s.applyAlter i r w = s := if_pos h

theorem State.applyAlter_still (h : w ≠ (r.start, r.stop)) (hs : w.1 = r.start) :
    s.applyAlter i r w = s.altered i r w := by
  rw [State.applyAlter, if_neg h]
  exact if_neg (not_not.2 hs)

theorem State.applyAlter_moved (hs : w.1 ≠ r.start) : s.applyAlter i r w =
    r.orders.foldl (fun t id => t.moveOrder r.day r.start w.1 id) ((s.altered i r w).relisted i r w.1) := by
  have h : w ≠ (r.start, r.stop) := fun e => hs (by rw [e])
  rw [State.applyAlter, if_neg h]
  exact if_pos hs

theorem State.moveOrders_queues {day : Day} {old new : Nat} (ids : List OrderId) :
    s.Queues (ids.foldl (fun t id => t.moveOrder day old new id) s) :=
  foldl_frame State.Queues State.Queues.refl State.Queues.trans (fun _ _ => State.moveOrder_queues) ids s

theorem State.res_relisted (start j : Nat) : (s.relisted i r start).res j = s.res j := rfl

theorem State.res_altered_same (h : s.res i = some r) :
    (s.altered i r w).res i = some { s.alteredRecord r w with version := r.version + 1 } := by
  rw [State.altered, State.res_changeRes_same _ h, State.alteredRecord]
  by_cases hs : w.1 = r.start
  · simp only [hs, if_true, ne_eq, not_true_eq_false, if_false]
  · simp only [hs, if_false, ne_eq, not_false_eq_true, if_true]

theorem State.res_altered_other {j : Nat} (hj : j ≠ i) : (s.altered i r w).res j = s.res j :=
  State.res_changeRes_other _ hj

theorem State.res_applyAlter_moved (hs : w.1 ≠ r.start) (j : Nat) :
    (s.applyAlter i r w).res j = (s.altered i r w).res j := by
  rw [State.applyAlter_moved hs, (State.moveOrders_queues r.orders).res, State.res_relisted]

theorem State.res_applyAlter_other {j : Nat} (hj : j ≠ i) : (s.applyAlter i r w).res j = s.res j := by
  by_cases h : w = (r.start, r.stop)
  · rw [State.applyAlter_same h]
  by_cases hs : w.1 = r.start
  · rw [State.applyAlter_still h hs, State.res_altered_other hj]
  · rw [State.res_applyAlter_moved hs, State.res_altered_other hj]

theorem State.res_applyAlter_same (h : w ≠ (r.start, r.stop)) (hr : s.res i = some r) :
    (s.applyAlter i r w).res i = some { s.alteredRecord r w with version := r.version + 1 } := by
  by_cases hs : w.1 = r.start
  · rw [State.applyAlter_still h hs, State.res_altered_same hr]
  · rw [State.res_applyAlter_moved hs, State.res_altered_same hr]

/-- The place of a moved record in its day list. -/
theorem State.dayList_applyAlter (hs : w.1 ≠ r.start) (hroom : r.room < 48) (hday : r.day ≠ .past) :
    ∃ before after, (s.dayList r.room r.day).filter (fun j => decide (j ≠ i)) = before ++ after ∧
      (s.applyAlter i r w).dayList r.room r.day = before ++ i :: after ∧
      (∀ j ∈ before, s.startOf j ≤ w.1) ∧ ∀ j, after.head? = some j → w.1 < s.startOf j := by
  obtain ⟨t, ht⟩ : ∃ t, t = s.altered i r w := ⟨_, rfl⟩
  have hstart : ∀ j, j ≠ i → t.startOf j = s.startOf j := by
    intro j hj
    rw [State.startOf, State.startOf, ht, State.res_altered_other hj]
  have hold : t.dayList r.room r.day = s.dayList r.room r.day := by
    rw [ht, State.altered, State.changeRes_frame]; rfl
  have hlist : (s.applyAlter i r w).dayList r.room r.day =
      insertByKey t.startOf i w.1 ((s.dayList r.room r.day).filter fun j => decide (j ≠ i)) := by
    rw [State.applyAlter_moved hs, (State.moveOrders_queues r.orders).dayList, ← ht, State.relisted, State.enterList,
      State.dayList_modList_same hroom _ fun h => absurd h hday, State.dayList_modList_same hroom _ fun _ => rfl, hold]
    rfl
  obtain ⟨before, after, hsplit, hins, hbefore, hafter⟩ :=
    insertByKey_split t.startOf i w.1 ((s.dayList r.room r.day).filter fun j => decide (j ≠ i))
  have hne : ∀ j ∈ before ++ after, j ≠ i := by
    intro j hj
    rw [← hsplit] at hj
    exact of_decide_eq_true (List.mem_filter.1 hj).2
  refine ⟨before, after, hsplit, hlist.trans hins, fun j hj => ?_, fun j hj => ?_⟩
  · rw [← hstart j (hne j (List.mem_append_left _ hj))]
    exact hbefore j hj
  · rw [← hstart j (hne j (List.mem_append_right _ (List.mem_of_mem_head? hj)))]
    exact hafter j hj

theorem State.order_altered (id : OrderId) : ((s.altered i r w).relisted i r w.1).order id = s.order id := by
  rw [State.altered, State.changeRes_frame]; rfl

theorem State.orderDay_altered {o : Order} (hr : s.res i = some r) (ho : o.res = i) :
    ((s.altered i r w).relisted i r w.1).orderDay o = some r.day := by
  rw [State.orderDay, State.res_relisted, ho, State.res_altered_same hr]; rfl

theorem State.lead_altered (p : Nat) : ((s.altered i r w).relisted i r w.1).pantry p = s.pantry p := by
  rw [State.altered, State.changeRes_frame]; rfl

theorem State.curSlot_altered : ((s.altered i r w).relisted i r w.1).curSlot = s.curSlot := by
  rw [State.altered, State.changeRes_frame]; rfl

/-- What an ALTER that moves a start makes of one of its HELD orders. -/
theorem State.order_applyAlter (hs : w.1 ≠ r.start) (hr : s.res i = some r) (hnodup : r.orders.Nodup) {id : OrderId}
    (hid : id ∈ r.orders) {o : Order} (ho : s.order id = some o) (hres : o.res = i) (hst : o.state = .held) :
    let d := moveSlot o.deliverBy r.start w.1
    let opened : Prop := r.day = .today ∧ ∃ now, s.curSlot = some now ∧ d - (s.pantry o.pantry).lead ≤ now
    ∃ x, (s.applyAlter i r w).order id = some { s.movedOrder r.day r.start w.1 o with state := x } ∧
      (opened → x = .queued ∧ (o.pantry < 8 → id ∈ ((s.applyAlter i r w).pantry o.pantry).dispatch)) ∧
      (¬opened → x = .held) := by
  intro d opened
  obtain ⟨before, after, hbefore, hafter, hfold⟩ := foldl_at hnodup hid
  obtain ⟨u, hu⟩ : ∃ u, u = before.foldl (fun t id => t.moveOrder r.day r.start w.1 id)
    ((s.altered i r w).relisted i r w.1) := ⟨_, rfl⟩
  have hmoves : ((s.altered i r w).relisted i r w.1).Queues u := by
    rw [hu]; exact State.moveOrders_queues before
  have huo : u.order id = some o := by
    rw [hu, foldl_local_not_mem (fun t id => t.order id) (fun t id => t.moveOrder r.day r.start w.1 id)
      (fun _ _ _ h => State.order_moveOrder_other h) _ hbefore, State.order_altered, ho]
  have huday : u.orderDay o = some r.day := by
    rw [State.orderDay, hmoves.res]; exact State.orderDay_altered hr hres
  have huslot : u.curSlot = s.curSlot := hmoves.curSlot.trans State.curSlot_altered
  have hulead : (u.pantry o.pantry).lead = (s.pantry o.pantry).lead := by rw [hmoves.lead, State.lead_altered]
  have hreached : u.reached d = s.reached d := by rw [State.reached, State.reached, huslot]
  have hmoved : u.movedOrder r.day r.start w.1 o = s.movedOrder r.day r.start w.1 o := by
    rw [State.movedOrder, State.movedOrder, State.delivers, State.delivers, hreached]
  obtain ⟨hopens, hstays⟩ := State.order_moveOrder_same (old := r.start) (new := w.1) huo hst huday
  rw [huslot, hulead, hmoved] at hopens hstays
  obtain ⟨v, hv⟩ : ∃ v, v = u.moveOrder r.day r.start w.1 id := ⟨_, rfl⟩
  rw [← hv] at hopens hstays
  have hend : s.applyAlter i r w = after.foldl (fun t id => t.moveOrder r.day r.start w.1 id) v := by
    rw [State.applyAlter_moved hs, hfold, ← hu, ← hv]
  have hlast : (s.applyAlter i r w).order id = v.order id := by
    rw [hend]
    exact foldl_local_not_mem (fun t id => t.order id) (fun t id => t.moveOrder r.day r.start w.1 id)
      (fun _ _ _ h => State.order_moveOrder_other h) _ hafter
  have hrest : v.Queues (s.applyAlter i r w) := by rw [hend]; exact State.moveOrders_queues after
  by_cases hop : opened
  · obtain ⟨horder, hqueue⟩ := hopens hop
    exact ⟨.queued, hlast.trans horder, fun _ => ⟨rfl, fun hp => (hrest.grows _).subset (hqueue hp)⟩,
      fun hno => absurd hop hno⟩
  · refine ⟨.held, ?_, fun hyes => absurd hyes hop, fun _ => rfl⟩
    rw [hlast, hstays hop, ← hst]
    rfl

end

end Sys2Proof.Machine
end

section
/-! PROOFS. ALTER taken (R48 to R50). -/

namespace Sys2Proof.Machine

variable {s : State} {tag : Tag} {room : Option Nat} {req : AlterReq} {i : Nat} {r : Reservation}

theorem State.taken_alterChecks {c : Instr} {k : MsgKind} :
    (s.taken c k tag).alterChecks i r req = s.alterChecks i r req := by
  rw [State.taken_eq]; rfl

theorem State.takeAlter_unresolved {code : Code} (h : s.resolve room req.ref = .error code) :
    s.takeAlter tag room req = s.reply .alter tag code .none := by
  rw [State.takeAlter, h]

theorem State.takeAlter_refused (h : s.resolve room req.ref = .ok (i, r)) {code : Code} {body : Body}
    (hc : s.alterChecks i r req = .error (code, body)) :
    s.takeAlter tag room req = s.reply .alter tag code body := by
  simp only [State.takeAlter, h, hc]

theorem State.takeAlter_applied (h : s.resolve room req.ref = .ok (i, r)) {w : Nat × Nat}
    (hc : s.alterChecks i r req = .ok w) : s.takeAlter tag room req =
      (s.applyAlter i r w).reply .alter tag .ok (.altered i ((s.applyAlter i r w).versionOf i) w.1 w.2) := by
  simp only [State.takeAlter, h, hc]

theorem exec_alter (h : s.accepts .alter tag) (room : Option Nat) (req : AlterReq)
    (hm : room = none → s.restart = none ∧ s.inTurn (.alter tag room req)) (hread : ¬unreadRef room req.ref) :
    exec (.alter tag room req) s = .next (afterCatchUp (.alter tag room req) (.alter tag room req) s.settled
      (inRange .alter tag (alterFormOk room req) fun t => t.takeAlter tag room req)
      (s.taken (.alter tag room req) .alter tag)).sent := by
  refine exec_naming h hm (fun hnone => ?_) (fun m hsome => ?_) hread
  · subst hnone; rfl
  · subst hsome; rfl

/-- A slot moved, kept to the day. -/
theorem moveSlot_eq (x old new : Nat) : moveSlot x old new = (max 0 (min 287 ((x : Int) + new - old))).toNat := by
  unfold moveSlot
  omega

/-- The order in which an ALTER's checks fail (R49). -/
def State.AltersInOrder (s : State) (i : Nat) (r : Reservation) (req : AlterReq) : Prop :=
  let moved : Prop := req.newStart.getD r.start ≠ r.start
  let w := s.alterWindow r req
  let held : Prop := ∀ id ∈ r.orders, ∃ o, s.order id = some o ∧ o.state = .held
  let open_ : Prop := (r.day = .today → s.clock.isSet = true) ∧ r.state.live = true ∧ r.day ≠ .past ∧
    (moved → r.state = .booked ∧ held)
  let bookedToday : Prop := r.state = .booked ∧ r.day = .today
  (r.day = .today → s.clock.isSet = false → s.alterChecks i r req = .error (.noTime, .none)) ∧
  ((r.day = .today → s.clock.isSet = true) →
    r.state.live = false ∨ r.day = .past ∨ (moved ∧ (r.state ≠ .booked ∨ ¬ held)) →
    s.alterChecks i r req = .error (.badState, .none)) ∧
  (open_ → 287 < w.1 ∨ 288 < w.2 ∨ w.2 ≤ w.1 → s.alterChecks i r req = .error (.badWindow, .none)) ∧
  (open_ → w.1 ≤ 287 → w.2 ≤ 288 → w.1 < w.2 →
    (bookedToday → s.reached w.2 = true → s.alterChecks i r req = .error (.past, .none)) ∧
    (bookedToday → s.reached w.2 = false → s.reached w.1 = true → (s.room r.room).service ≠ .opened →
      s.alterChecks i r req = .error (.roomClosed, .none)) ∧
    ((bookedToday → s.reached w.2 = false) →
      (bookedToday → s.reached w.1 = true → (s.room r.room).service = .opened) →
      let dueNow : Prop := bookedToday ∧ s.reached w.1 = true ∧ w ≠ (r.start, r.stop)
      let clear : Prop := s.conflict r.room r.day w.1 w.2 r.tail (some i) = none
      (∀ j, s.conflict r.room r.day w.1 w.2 r.tail (some i) = some j →
        s.alterChecks i r req = .error (.conflict, .index j)) ∧
      (∀ j x, clear → dueNow → s.current r.room = some (j, x) →
        s.alterChecks i r req = .error (.conflict, .index j)) ∧
      (clear → (dueNow → s.current r.room = none) → s.alterChecks i r req = .ok w)))

theorem State.altersInOrder : s.AltersInOrder i r req := by
  refine ⟨fun hd hset => State.alterChecks_noTime hd hset, fun hset hb =>
    State.alterChecks_badState hset (State.alterBarred_iff.2 hb), ?window, ?rest⟩
  all_goals
    rintro ⟨hset, hlive, hday, hmoved⟩
    have hopen : ¬s.alterBarred r req := by
      rw [State.alterBarred_iff]
      rintro (hl | hp | ⟨hm, hb | hh⟩)
      · exact Bool.false_ne_true (hl.symm.trans hlive)
      · exact hday hp
      · exact hb (hmoved hm).1
      · exact hh (hmoved hm).2
  case window => exact State.alterChecks_badWindow hset hopen
  intro h1 h2 h3
  have hw : ¬(287 < (s.alterWindow r req).1 ∨ 288 < (s.alterWindow r req).2 ∨
      (s.alterWindow r req).2 ≤ (s.alterWindow r req).1) := by omega
  have hpast : (r.state = .booked ∧ r.day = .today → s.reached (s.alterWindow r req).2 = false) →
      ¬((r.state = .booked ∧ r.day = .today) ∧ s.reached (s.alterWindow r req).2 = true) :=
    fun h hc => Bool.false_ne_true ((h hc.1).symm.trans hc.2)
  refine ⟨fun hb => State.alterChecks_past hset hopen hw hb, fun hb hnot hreach hshut =>
    State.alterChecks_roomClosed hset hopen hw (hpast fun _ => hnot) ⟨hb, hshut, hreach⟩, fun hnot hroom => ?_⟩
  have hroom' : ¬((r.state = .booked ∧ r.day = .today) ∧ (s.room r.room).service ≠ .opened ∧
      s.reached (s.alterWindow r req).1 = true) := fun hc => hc.2.1 (hroom hc.1 hc.2.2)
  have hdue : (r.state = .booked && r.day = .today && s.reached (s.alterWindow r req).1 &&
      decide (s.alterWindow r req ≠ (r.start, r.stop))) = true ↔ (r.state = .booked ∧ r.day = .today) ∧
        s.reached (s.alterWindow r req).1 = true ∧ s.alterWindow r req ≠ (r.start, r.stop) := by
    simp [and_assoc]
  refine ⟨fun j hc => ?_, fun j x hclear hnow hcur => ?_, fun hclear hcur => ?_⟩
  · exact State.alterChecks_conflict hset hopen hw (hpast hnot) hroom' (State.blocker_conflict hc)
  · exact State.alterChecks_conflict hset hopen hw (hpast hnot) hroom' (State.blocker_current hclear (hdue.2 hnow) hcur)
  · exact State.alterChecks_passed hset hopen hw (hpast hnot) hroom' (State.blocker_none hclear fun h => hcur (hdue.1 h))

/-- Settles O19: by the reference, the form, the checks in their order, and the record, the day list and the orders. -/
theorem alterGivesTheWindow : Obligations.AlterGivesTheWindow := by
  intro s tag room req c t h hm unread
  have hwaits : waitsOut c = true := by cases room <;> rfl
  have taken : ¬unreadRef room req.ref → exec c s = .next (afterCatchUp c c s.settled
      (inRange .alter tag (alterFormOk room req) fun t => t.takeAlter tag room req) t).sent :=
    exec_alter h room req hm
  have takes : s.catchUp = false → alterFormOk room req = true →
      exec c s = .next (t.takeAlter tag room req).sent := by
    intro hcatch hok
    rw [taken (not_unread_of_formOk (Bool.and_eq_true_iff.1 hok).1),
      afterCatchUp_idle ((catchUp_taken hwaits).trans hcatch), hok, inRange_good]
  refine ⟨?bad, fun hread hcatch => ?waits, fun hcatch code hok hres => ?unresolved, fun i r hcatch hok hres => ?_⟩
  case bad =>
    have hfloor : room = none → exec c s = run c s (manage .alter tag c s.settled (refEncoded req.ref)
        (afterCatchUp c c s.settled
          (inRange .alter tag (alterFormOk room req) fun t => t.takeAlter tag room req))) := by
      intro hnone
      subst hnone
      rfl
    rintro (hread | ⟨hcatch, hno⟩)
    · exact exec_unread h hm hfloor hread
    · by_cases hread : unreadRef room req.ref
      · exact exec_unread h hm hfloor hread
      · rw [taken hread, afterCatchUp_idle ((catchUp_taken hwaits).trans hcatch), hno, inRange_bad, State.replies]
  case waits =>
    rw [taken hread, afterCatchUp_waits ((catchUp_taken hwaits).trans hcatch), State.settled_of_atRest h.1]
  case unresolved =>
    rw [takes hcatch hok, State.takeAlter_unresolved (State.taken_resolve.trans hres), State.replies]
  intro moved w running stop held open_ bookedToday
  refine ⟨⟨rfl, fun now hnow hr hle => State.alterWindow_snd_passed hnow hr hle,
      fun now hnow ha => State.alterWindow_snd_ahead hnow ha, State.alterWindow_snd_unset⟩,
    fun code body hc => ?refused, fun w' hc => ?applied, State.altersInOrder⟩
  case refused =>
    rw [takes hcatch hok, State.takeAlter_refused (State.taken_resolve.trans hres) (State.taken_alterChecks.trans hc),
      State.replies]
  obtain ⟨hw, hday⟩ := State.alterChecks_ok hc
  have hrt : ∀ j, t.res j = s.res j := fun j => State.taken_res ..
  refine ⟨hw, ?_, fun heq => State.applyAlter_same heq, fun j hj => (State.res_applyAlter_other hj).trans (hrt j),
    fun hs hr hroom => ?listed, fun hs hr hnodup id hid o ho hres hst => ?order, fun hne hr => ?record⟩
  · subst hw
    rw [takes hcatch hok, State.takeAlter_applied (State.taken_resolve.trans hres) (State.taken_alterChecks.trans hc)]
  case listed =>
    have hlist := State.dayList_applyAlter (s := t) (i := i) (w := w) hs hroom hday
    have hstart : t.startOf = s.startOf := funext fun j => State.taken_startOf ..
    rw [State.taken_dayList, hstart] at hlist
    exact hlist
  case order =>
    have horder := State.order_applyAlter (s := t) hs ((hrt i).trans hr) hnodup hid
      ((State.taken_order ..).trans ho) hres hst
    rw [State.movedOrder, State.delivers, moveSlot_eq, moveSlot_eq, State.taken_reached, State.taken_curSlot,
      State.taken_pantry] at horder
    exact horder
  case record =>
    rw [State.res_applyAlter_same (s := t) hne ((hrt i).trans hr), State.alteredRecord, State.taken_reached]

end Sys2Proof.Machine
end

section
/-! PROOFS. The Floor Clock (R12 to R20): TIME, its catch-up, and the boundaries that a second raises. -/

namespace Sys2Proof.Machine

variable {s : State} {tag : Tag}

/-! ## TIME (R16) -/

section

variable {day minute seconds : Nat}

theorem Clock.classify_unset {c : Clock} (h : c.isSet = false) : c.classify day minute seconds = .firstSet :=
  if_pos (by rw [h]; rfl)

section

variable {c : Clock} (h : c.isSet = true)
include h

theorem Clock.classify_sameDay (hd : day = c.day) : c.classify day minute seconds =
    if c.minute * 60 + c.seconds ≤ minute * 60 + seconds then .forward else .backward := by
  unfold Clock.classify
  rw [if_neg (by rw [h]; exact Bool.false_ne_true), if_pos hd]
  rfl

theorem Clock.classify_otherDay (hd : day ≠ c.day) : c.classify day minute seconds =
    if day = (c.day + 1) % 65536 then .nextDay else .flush := by
  unfold Clock.classify
  rw [if_neg (by rw [h]; exact Bool.false_ne_true), if_neg hd]

end

/-- The state that a TIME step finds: a day flush's, or the one as it was. -/
def State.flushedFor (s : State) (kind : StepKind) : State := if kind = .flush then s.dayFlush else s

theorem foldl_handed (l : List Instr) (t : State) : l.foldl State.hand t = { t with due := t.due ++ l } :=
  (foldl_hand id l t).trans (by rw [List.map_id])

theorem State.takeTime_eq {kind : StepKind} (hk : kind = s.clock.classify day minute seconds)
    {work : List Instr × Nat} (hw : work = s.clock.catchUp kind day minute seconds)
    {u : State} (hu : u = s.flushedFor kind) : s.takeTime tag day minute seconds = { u.markAll with
      clock := { isSet := true, seconds := seconds, minute := minute, day := day, periods := 0 }
      timeStep := some { tag := tag, kind := kind, day := day, minute := minute, seconds := seconds, boundaries := work.2 }
      riser := { u.riser with offlineCuts := u.riser.offlineCuts + 1 }
      pantries := u.pantries.map fun (p : Pantry) =>
        { p with replayTimer := p.replayTimer.map fun (x : ReplayTimer) => { x with cuts := x.cuts + 1 } }
      due := u.due ++ work.1 ++ [Instr.timeStepComplete] } := by
  have htake : s.takeTime tag day minute seconds = (work.1.foldl State.hand { u with
      clock := { isSet := true, seconds := seconds, minute := minute, day := day, periods := 0 }
      timeStep := some { tag := tag, kind := kind, day := day, minute := minute, seconds := seconds
                         boundaries := work.2 } }.cutSecond.markAll).hand .timeStepComplete := by
    subst hw
    subst hk
    subst hu
    rfl
  rw [htake, foldl_handed]
  rfl

variable (h : s.accepts .time tag)
include h

theorem exec_time (hd : day < 65536) : exec (.time tag day minute seconds) s = .next (
    let t := s.taken (.time tag day minute seconds) .time tag
    if 1440 ≤ minute ∨ 60 ≤ seconds then t.reply .time tag .badMessage .none
    else if s.clockBusy then t.reply .time tag .busy .none
    else t.takeTime tag day minute seconds).sent := by
  show execTime tag day minute seconds s = _
  rw [execTime, serve_accepts h, State.taken_clockBusy rfl]
  have hno : ¬65536 ≤ day := Nat.not_le.2 hd
  simp only [hno, or_false]

end

theorem exec_timeStepComplete (h : s.atRest) {step : TimeStep} (hs : s.timeStep = some step)
    (hahead : (s.ahead .timeStepComplete).any isBoundaryWork = false) : exec .timeStepComplete s =
      .next ({ s.takeDue .timeStepComplete with timeStep := none }.reply .time step.tag .ok (.timeStep step)).sent := by
  show execTimeStepComplete s = _
  rw [execTimeStepComplete, run_next h, State.settled_of_atRest h, afterEarlier_runs hahead]
  simp only [State.takeDue_timeStep, hs]

/-- Work that stands in its place goes on waiting there. -/
theorem State.handOnce_mem {c : Instr} (h : c ∈ s.due) : s.handOnce c = s := by
  rw [State.handOnce_eq, if_pos h]

/-- Settles O23: the TIME message by its ranges, the work in progress and its kind, and the step's completion. -/
theorem timeStepsAndTheirReply : Obligations.TimeStepsAndTheirReply := by
  intro s
  refine ⟨fun tag day minute seconds h hd => ⟨fun hrange => ?range, fun hmin hsec hbusy => ?busy,
      fun hmin hsec hidle => ?taken⟩, fun step h hs hahead => exec_timeStepComplete h hs hahead, fun h hmem hahead => ?waits,
    fun before after hno hdue => ahead_of_split hno hdue, fun day minute seconds =>
      ⟨Clock.classify_unset, fun hset hday hle => (Clock.classify_sameDay hset hday).trans (if_pos hle),
        fun hset hday hlt => (Clock.classify_sameDay hset hday).trans (if_neg (Nat.not_le.2 hlt)),
        fun hset hne hnext => (Clock.classify_otherDay hset hne).trans (if_pos hnext),
        fun hset hne hno => (Clock.classify_otherDay hset hne).trans (if_neg hno)⟩⟩
  case range =>
    rw [exec_time h hd, State.replies]
    simp only [if_pos hrange]
  case busy =>
    rw [exec_time h hd, State.replies]
    simp only [if_neg (not_or.2 ⟨Nat.not_le.2 hmin, Nat.not_le.2 hsec⟩), if_pos hbusy]
  case taken =>
    rw [exec_time h hd]
    simp only [if_neg (not_or.2 ⟨Nat.not_le.2 hmin, Nat.not_le.2 hsec⟩), hidle, Bool.false_eq_true, if_false]
    rw [State.takeTime_eq (s := s.taken (.time tag day minute seconds) .time tag)
      (kind := s.clock.classify day minute seconds) (work := s.clock.catchUp (s.clock.classify day minute seconds) day
        minute seconds) (by rw [State.taken_clock]) (by rw [State.taken_clock]) rfl]
    rfl
  case waits =>
    show execTimeStepComplete s = _
    rw [execTimeStepComplete, run_next h, State.settled_of_atRest h, afterEarlier_waits hahead, State.handOnce_mem hmem]

/-! ## The boundaries of a TIME step (R17 to R20) -/

theorem mem_skippedSlots {lo hi k : Nat} : k ∈ skippedSlots lo hi ↔ k < 288 ∧ lo < 300 * k ∧ 300 * k ≤ hi := by
  simp [skippedSlots]

theorem skippedSlots_sorted (lo hi : Nat) : (skippedSlots lo hi).Pairwise (· < ·) :=
  List.pairwise_lt_range.filter _

/-- Slot 0 is never skipped. -/
theorem skippedSlots_length (lo hi : Nat) : (skippedSlots lo hi).length ≤ 287 := by
  have hlt : (skippedSlots lo hi).length < (List.range 288).length :=
    List.length_filter_lt_length_iff_exists.2 ⟨0, List.mem_range.2 (by omega), by simp⟩
  rw [List.length_range] at hlt
  omega

/-- Settles O24: the slots of each kind of step. -/
theorem catchUpRunsSkippedBoundaries : Obligations.CatchUpRunsSkippedBoundaries := by
  intro c day minute seconds hok hmin hsec both old new
  refine ⟨?first, ⟨skippedSlots old new, rfl, skippedSlots_sorted _ _, fun k => mem_skippedSlots⟩,
    ⟨skippedSlots old 86399, skippedSlots 0 new, rfl, skippedSlots_sorted _ _, skippedSlots_sorted _ _, fun k => ?rest,
      fun k => ?today, ?bound⟩, rfl, rfl⟩
  case first => rw [Clock.catchUp, List.length_range]; rfl
  case rest =>
    rw [mem_skippedSlots]
    exact ⟨fun h => ⟨h.1, h.2.1⟩, fun h => ⟨h.1, h.2, by omega⟩⟩
  case today =>
    rw [mem_skippedSlots]
    show k < 288 ∧ 0 < 300 * k ∧ 300 * k ≤ minute * 60 + seconds ↔ _
    omega
  case bound =>
    have hold := skippedSlots_length old 86399
    have hnew := skippedSlots_length 0 new
    omega

/-! ## A second of the clock (R12 to R15) -/

/-- The clock one second on, by the second of the day. -/
theorem Clock.advance_eq {c : Clock} (h : c.ok) {new : Nat} (hn : new = (c.minute * 60 + c.seconds + 1) % 86400) :
    c.advance = { c with
      seconds := new % 60, minute := new / 60, periods := 0
      day := if new = 0 then (c.day + 1) % 65536 else c.day } := by
  obtain ⟨hsec, hmin, -⟩ := h
  unfold Clock.advance
  by_cases h1 : c.seconds < 59
  · have hnew : new ≠ 0 := by omega
    rw [if_pos h1, if_neg hnew, show new % 60 = c.seconds + 1 by omega, show new / 60 = c.minute by omega]
  · rw [if_neg h1]
    by_cases h2 : c.minute < 1439
    · have hnew : new ≠ 0 := by omega
      rw [if_pos h2, if_neg hnew, show new % 60 = 0 by omega, show new / 60 = c.minute + 1 by omega]
    · have hnew : new = 0 := by omega
      rw [if_neg h2, if_pos hnew, hnew]

/-- The timed events of a second hand over the evidence tick, then the boundary. -/
theorem State.raiseTimed_eq (old : Clock) : s.raiseTimed old = { s with
    due := s.due ++ (if s.clock.seconds % 10 = 0 then [Instr.evidenceTick] else []) ++
      (if s.clock.isSet = true ∧ s.clock.seconds = 0 then
        if s.clock.minute = 0 then [Instr.dayBoundary old.day]
        else if s.clock.minute % 5 = 0 then [Instr.slotBoundary s.clock.day (s.clock.minute / 5)] else []
      else []) } := by
  unfold State.raiseTimed
  have htick : (if s.clock.seconds % 10 = 0 then s.hand .evidenceTick else s) =
      { s with due := s.due ++ (if s.clock.seconds % 10 = 0 then [Instr.evidenceTick] else []) } := by
    split
    · rfl
    · rw [List.append_nil]
  simp only [htick]
  split
  · split
    · rfl
    · split
      · rfl
      · rw [List.append_nil]
  · rw [List.append_nil]

/-- The boundary that a second passes into, by the second of the day. -/
theorem boundary_of_second (isSet : Bool) (new day old : Nat) :
    (if isSet = true ∧ new % 60 = 0 then
      if new / 60 = 0 then [Instr.dayBoundary old]
      else if new / 60 % 5 = 0 then [Instr.slotBoundary (if new = 0 then day else old) (new / 60 / 5)] else []
    else []) =
    if isSet = true ∧ new = 0 then [Instr.dayBoundary old]
    else if isSet = true ∧ new % 300 = 0 then [Instr.slotBoundary old (new / 300)] else [] := by
  cases isSet with
  | false => simp
  | true =>
    simp only [true_and]
    by_cases hzero : new = 0
    · simp [hzero]
    · by_cases hslot : new % 300 = 0
      · rw [if_pos (by omega), if_neg (by omega), if_pos (by omega), if_neg hzero, if_neg hzero, if_pos hslot,
          show new / 60 / 5 = new / 300 by omega]
      · rw [if_neg hzero, if_neg hzero, if_neg hslot]
        by_cases hmin : new % 60 = 0
        · rw [if_pos hmin, if_neg (show ¬new / 60 = 0 by omega), if_neg (show ¬new / 60 % 5 = 0 by omega)]
        · rw [if_neg hmin]

/-- The timed events of a second by the second of the day. -/
theorem State.raiseTimed_second {c : Clock} {new day : Nat} (hc : s.clock = { c with
    seconds := new % 60, minute := new / 60, periods := 0, day := if new = 0 then day else c.day }) :
    s.raiseTimed c = { s with
      due := s.due ++ (if new % 10 = 0 then [Instr.evidenceTick] else []) ++
        (if c.isSet = true ∧ new = 0 then [Instr.dayBoundary c.day]
         else if c.isSet = true ∧ new % 300 = 0 then [Instr.slotBoundary c.day (new / 300)] else []) } := by
  have htick : (if s.clock.seconds % 10 = 0 then [Instr.evidenceTick] else []) =
      if new % 10 = 0 then [Instr.evidenceTick] else [] :=
    if_congr (by rw [hc]; exact Eq.congr_left (Nat.mod_mod_of_dvd new (by decide))) rfl rfl
  have hboundary : (if s.clock.isSet = true ∧ s.clock.seconds = 0 then
        if s.clock.minute = 0 then [Instr.dayBoundary c.day]
        else if s.clock.minute % 5 = 0 then [Instr.slotBoundary s.clock.day (s.clock.minute / 5)] else []
      else []) = if c.isSet = true ∧ new = 0 then [Instr.dayBoundary c.day]
        else if c.isSet = true ∧ new % 300 = 0 then [Instr.slotBoundary c.day (new / 300)] else [] := by
    simp only [hc]
    exact boundary_of_second c.isSet new day c.day
  rw [State.raiseTimed_eq, htick, hboundary]

theorem exec_slotBoundary (h : s.atRest) (hset : s.clock.isSet = true) (day k : Nat) : exec (.slotBoundary day k) s =
    .next { s.markAll with due := putInPlace (.slotBoundary day k) (boundaryWork day k) s.due }.sent := by
  show execSlotBoundary day k s = _
  rw [execSlotBoundary, run_next h, if_pos (show (s.takeDue _).clock.isSet = true from hset), State.settled_of_atRest h]
  rfl

/-- Settles O25: a second by the clock's parts, and the slot boundary by its place among the work that is due. -/
theorem clockSecondRaisesItsBoundaries : Obligations.ClockSecondRaisesItsBoundaries := by
  intro s h t old new
  have hexec : exec .clockSecond s = .next (if t.loading then t
      else ({ t with clock := t.clock.advance }.countDown).raiseTimed t.clock).sent := by
    show execClockSecond s = _
    rw [execClockSecond, run_next h]
  have hload : t.loading = s.loading := State.takeDue_loading _
  refine ⟨fun hl => ?loading, fun hl hok => ?second, fun day k hset => ⟨fun hno => ?absent,
    fun before after hno hdue => ?present⟩⟩
  case loading => rw [hexec, if_pos (hload.trans hl)]
  case second =>
    have hadv : ({ t with clock := t.clock.advance }.countDown).clock = { s.clock with
        seconds := new % 60, minute := new / 60, periods := 0
        day := if new = 0 then (s.clock.day + 1) % 65536 else s.clock.day } := Clock.advance_eq hok rfl
    rw [hexec, if_neg (by rw [hload, hl]; exact Bool.false_ne_true)]
    refine congrArg (fun u : State => Host.Outcome.next u.sent) ((State.raiseTimed_second hadv).trans ?_)
    rw [← hadv]
    rfl
  case absent => rw [exec_slotBoundary h hset, putInPlace_absent hno]; rfl
  case present => rw [exec_slotBoundary h hset, hdue, putInPlace_present hno]; rfl

end Sys2Proof.Machine
end

section
/-! PROOFS. The Booking Engine's run of a boundary (R59 to R62), and what the end of a record is (R8, R31, R33, R63). -/

namespace Sys2Proof.Machine

variable {s : State}

/-! ## Causes raised beside changes of tables -/

/-- A state with the records, rooms, orders, pantries and drops of another. -/
def State.withTables (s t : State) : State :=
  { s with pool := t.pool, rooms := t.rooms, orders := t.orders, pantries := t.pantries, drops := t.drops }

section

variable {t : State} {i : Nat} {c : Cause}

theorem State.placeEvent_withTables : (s.withTables t).placeEvent i = (s.placeEvent i).withTables t := by
  unfold State.placeEvent
  by_cases h : 0 < s.freeEntries
  · rw [if_pos h, if_pos (show 0 < (s.withTables t).freeEntries from h)]
    rfl
  · rw [if_neg h, if_neg (show ¬0 < (s.withTables t).freeEntries from h)]
    rfl

/-- A cause is raised whatever the tables hold. -/
theorem State.raise_withTables : (s.withTables t).raise i c = (s.raise i c).withTables t := by
  unfold State.raise
  by_cases hi : floorLatch < i
  · rw [if_pos hi, if_pos hi]
  rw [if_neg hi, if_neg hi]
  by_cases hset : (s.latch i).isSet = true
  · rw [if_pos hset, if_pos (show ((s.withTables t).latch i).isSet = true from hset)]
    rfl
  · rw [if_neg hset, if_neg (show ¬((s.withTables t).latch i).isSet = true from hset)]
    exact State.placeEvent_withTables (s := s.modLatch i fun l =>
      { l with isSet := true, causes := c.bit, pendingCount := 0, pendingCauses := 0, raiseCount := 1 })

end

/-! ## CLOSE_DONE (R8) -/

section

variable {room : Nat}

theorem State.drop_setService (x : Service) (d : DropCode) : (s.setService room x).drop d =
    if (s.drop d).room = some room then (s.drop d).marked else s.drop d := State.drop_markRoom room d

theorem State.drop_closeDone (d : DropCode) : (s.closeDone room).drop d =
    if (s.room room).service = .closing ∧ (s.drop d).room = some room then (s.drop d).marked else s.drop d := by
  by_cases hc : (s.room room).service = .closing
  · rw [State.closeDone_closing hc, State.drop_raise, State.drop_setService]
    simp only [hc, true_and]
  · rw [State.closeDone_other hc, if_neg fun h => hc h.1]

/-- A drop of a room as its displays are marked: a bound panel's is stale, any other drop is as it was. -/
theorem State.marked_bound {d : DropCode} : (if (s.drop d).room = some room then (s.drop d).marked else s.drop d) =
    if d ∈ s.boundPanels room then { s.drop d with stale := true } else s.drop d := by
  by_cases hroom : (s.drop d).room = some room
  · rw [if_pos hroom, Drop.marked]
    exact if_congr (by rw [State.mem_boundPanels]; exact (and_iff_left hroom).symm) rfl rfl
  · rw [if_neg hroom, if_neg fun hb => hroom (State.mem_boundPanels.1 hb).2]

/-- The causes that a CLOSE_DONE raises do not depend on records or displays. -/
theorem State.closeDone_events {t : State} (hrooms : t.rooms = s.rooms) :
    ((s.withTables t).closeDone room).rooms = (s.closeDone room).rooms ∧
    ((s.withTables t).closeDone room).latches = (s.closeDone room).latches ∧
    ((s.withTables t).closeDone room).riser = (s.closeDone room).riser ∧
    ((s.withTables t).closeDone room).unsent = (s.closeDone room).unsent := by
  have hroom : (s.withTables t).room room = s.room room := by
    show t.rooms[room]?.getD RoomEntry.reset = s.rooms[room]?.getD RoomEntry.reset
    rw [hrooms]
  by_cases hc : (s.room room).service = .closing
  · obtain ⟨u, hu⟩ : ∃ u, u = (s.withTables t).setService room .closed := ⟨_, rfl⟩
    have hset : u = s.withTables u := by rw [hu]; rfl
    have hset' : s.setService room .closed = s.withTables (s.setService room .closed) := rfl
    have hurooms : u.rooms = (s.setService room .closed).rooms := by
      rw [hu]
      show updAt t.rooms room _ = updAt s.rooms room _
      rw [hrooms]
    rw [State.closeDone_closing (by rw [hroom]; exact hc), State.closeDone_closing hc, ← hu, hset, hset',
      State.raise_withTables, State.raise_withTables]
    exact ⟨hurooms, rfl, rfl, rfl⟩
  · rw [State.closeDone_other (by rw [hroom]; exact hc), State.closeDone_other hc]
    exact ⟨hrooms, rfl, rfl, rfl⟩

end

/-! ## The end of a record -/

theorem Drop.marked_marked (d : Drop) : d.marked.marked = d.marked := by
  unfold Drop.marked
  by_cases h : d.kind = .roomPanel
  · simp only [if_pos h]
  · simp only [if_neg h]

theorem Drop.marked_room (d : Drop) : d.marked.room = d.room := by
  unfold Drop.marked
  split <;> rfl

section

variable {i : Nat} {r : Reservation} (st : ResState) (why : EndReason) (closed : ClosedAt) (dirty : Bool)

/-- A record's end marks the displays of its room: of a TODAY record, and with a CLOSE_DONE. -/
theorem State.drop_ended (h : s.res i = some r) (d : DropCode) : (s.ended i r st why closed dirty).drop d =
    if (r.day = .today ∨ (r.state = .inUse ∧ (s.room r.room).service = .closing)) ∧ d ∈ s.boundPanels r.room then
      { s.drop d with stale := true }
    else s.drop d := by
  have hchange : ∀ f, ((s.changeRes i f).room r.room).service = (s.room r.room).service := by
    intro f; rw [State.changeRes_frame]; rfl
  have hdrop : (s.ended i r st why closed dirty).drop d =
      if (r.day = .today ∨ (r.state = .inUse ∧ (s.room r.room).service = .closing)) ∧ (s.drop d).room = some r.room then
        (s.drop d).marked
      else s.drop d := by
    unfold State.ended
    by_cases hroom : (s.drop d).room = some r.room
    · by_cases huse : r.state = .inUse
      · rw [if_pos huse, State.drop_closeDone, hchange, State.drop_changeRes _ h]
        by_cases hd : r.day = .today <;> by_cases hc : (s.room r.room).service = .closing <;>
          simp [hroom, huse, hd, hc, Drop.marked_room, Drop.marked_marked]
      · rw [if_neg huse, State.drop_changeRes _ h]
        simp [hroom, huse]
    · have hno : ∀ p : Prop, ¬(p ∧ (s.drop d).room = some r.room) := fun p hp => hroom hp.2
      by_cases huse : r.state = .inUse
      · rw [if_pos huse, State.drop_closeDone, State.drop_changeRes _ h]
        simp only [if_neg (hno _)]
      · rw [if_neg huse, State.drop_changeRes _ h, if_neg (hno _), if_neg (hno _)]
  rw [hdrop]
  by_cases hp : r.day = .today ∨ (r.state = .inUse ∧ (s.room r.room).service = .closing)
  · simp only [hp, true_and]
    exact State.marked_bound
  · rw [if_neg fun hc => hp hc.1, if_neg fun hc => hp hc.1]

theorem State.changeRes_withTables (f : Reservation → Reservation) :
    s.changeRes i f = s.withTables (s.changeRes i f) := by
  conv_lhs => rw [State.changeRes_frame]
  rw [State.changeRes_frame]
  rfl

theorem State.changeRes_rooms (f : Reservation → Reservation) : (s.changeRes i f).rooms = s.rooms := by
  rw [State.changeRes_frame]

/-- The IN_USE record of a CLOSING room ends with the room's CLOSE_DONE. -/
theorem State.ended_closes (huse : r.state = .inUse) : let u := s.ended i r st why closed dirty
    u.rooms = (s.closeDone r.room).rooms ∧ u.latches = (s.closeDone r.room).latches ∧
      u.riser = (s.closeDone r.room).riser ∧ u.unsent = (s.closeDone r.room).unsent := by
  intro u
  have hu : u = (s.withTables (s.changeRes i fun r => r.finished st why closed dirty)).closeDone r.room := by
    rw [← State.changeRes_withTables]
    exact if_pos huse
  rw [hu]
  exact State.closeDone_events (State.changeRes_rooms _)

theorem State.ended_open (h : ¬(r.state = .inUse ∧ (s.room r.room).service = .closing)) :
    let u := s.ended i r st why closed dirty
    u.rooms = s.rooms ∧ u.latches = s.latches ∧ u.riser = s.riser ∧ u.unsent = s.unsent := by
  intro u
  have hu : u = s.changeRes i fun r => r.finished st why closed dirty := by
    by_cases huse : r.state = .inUse
    · refine (if_pos huse).trans (State.closeDone_other fun hc => h ⟨huse, ?_⟩)
      rw [State.changeRes_frame] at hc
      exact hc
    · exact if_neg huse
  rw [hu, State.changeRes_frame]
  exact ⟨rfl, rfl, rfl, rfl⟩

end

/-! ## A notice before the Dispatcher's next boundary (R63) -/

theorem insertBeforeBoundary_tail (c : Instr) {l : List Instr} (h : l.any isDispatcherBoundary = false) :
    insertBeforeBoundary c l = l ++ [c] := by
  induction l with
  | nil => rfl
  | cons d ds ih =>
    rw [List.any_cons, Bool.or_eq_false_iff] at h
    rw [insertBeforeBoundary, if_neg (by rw [h.1]; exact Bool.false_ne_true), ih h.2, List.cons_append]

theorem insertBeforeBoundary_split (c : Instr) {before after : List Instr} {b : Instr}
    (h : before.any isDispatcherBoundary = false) (hb : isDispatcherBoundary b = true) :
    insertBeforeBoundary c (before ++ b :: after) = before ++ c :: b :: after := by
  induction before with
  | nil => exact if_pos hb
  | cons d ds ih =>
    rw [List.any_cons, Bool.or_eq_false_iff] at h
    rw [List.cons_append, insertBeforeBoundary, if_neg (by rw [h.1]; exact Bool.false_ne_true), ih h.2, List.cons_append]

/-! ## The phases for one record -/

section

variable {day k i : Nat} {r : Reservation} (h : s.res i = some r)
include h

theorem State.endAt_inUse (hk : r.stop = k) (hst : r.state = .inUse) : State.endAt day k s i =
    s.finish i .ended .normalEnd { day := day, slot := k } false (some k) := by
  simp only [State.endAt, h, if_pos hk, hst]

theorem State.endAt_due (hk : r.stop = k) (hst : r.state = .due) : State.endAt day k s i =
    s.finish i .ended .endUnused { day := day, slot := k } true (some k) := by
  simp only [State.endAt, h, if_pos hk, hst]

theorem State.endAt_other (ho : r.stop ≠ k ∨ (r.state ≠ .inUse ∧ r.state ≠ .due)) : State.endAt day k s i = s := by
  simp only [State.endAt, h]
  by_cases hk : r.stop = k
  · obtain ⟨hu, hd⟩ := ho.resolve_left (not_not.2 hk)
    rw [if_pos hk]
    cases hst : r.state with
    | inUse => exact absurd hst hu
    | due => exact absurd hst hd
    | booked | released | cancelled | ended => rfl
  · exact if_neg hk

section

variable (hst : r.state = .due) (hk : r.start + (s.classOf r.room).grace ≤ k)
include hst hk

theorem State.judgeAt_absent (hv : (s.ev r.room).verdict = .vacant ∨ (s.ev r.room).verdict = .noSensor) :
    State.judgeAt day k s i = s.finish i .released .noShow { day := day, slot := k } true (some k) := by
  rcases hv with hv | hv <;> simp only [State.judgeAt, h, if_pos (And.intro hst hk), hv]

theorem State.judgeAt_occupied (hv : (s.ev r.room).verdict = .occupied) : State.judgeAt day k s i =
    if (s.classOf r.room).presence then s.changeRes i fun r =>
      { r with state := .inUse, checkIn := some { slot := k, how := .presence }, dirty := true }
    else s := by
  simp only [State.judgeAt, h, if_pos (And.intro hst hk), hv]

theorem State.judgeAt_unknown (hv : (s.ev r.room).verdict = .unknown) : State.judgeAt day k s i = s := by
  simp only [State.judgeAt, h, if_pos (And.intro hst hk), hv]

end

theorem State.judgeAt_early (ho : ¬(r.state = .due ∧ r.start + (s.classOf r.room).grace ≤ k)) :
    State.judgeAt day k s i = s := by
  simp only [State.judgeAt, h, if_neg ho]

theorem State.startAt_due (hst : r.state = .booked) (hk : r.start = k) : State.startAt day k s i =
    if s.shut r.room then s.finish i .cancelled .roomClosed { day := day, slot := k } true (some k)
    else if r.early then
      s.changeRes i fun r => { r with state := .inUse, checkIn := some { slot := k, how := .key } }
    else s.changeRes i fun r => { r with state := .due } := by
  simp only [State.startAt, h, if_pos (And.intro hst hk)]

theorem State.startAt_other (ho : r.state ≠ .booked ∨ r.start ≠ k) : State.startAt day k s i = s := by
  have hno : ¬(r.state = .booked ∧ r.start = k) := fun hc => ho.elim (fun h => h hc.1) fun h => h hc.2
  simp only [State.startAt, h, if_neg hno]

end

theorem exec_bookingSlotRun_runs (h : s.atRest) {day k : Nat}
    (hahead : (s.ahead (.bookingSlotRun day k)).any isBookingBoundary = false) : exec (.bookingSlotRun day k) s =
    .next ((if Instr.bookingSlotRun day k ∈ s.stepWork then (s.takeDue (.bookingSlotRun day k)).markAll
      else s.takeDue (.bookingSlotRun day k)).bookingBoundary day k).sent := by
  show execBookingSlotRun day k s = _
  rw [execBookingSlotRun, run_next h, State.settled_of_atRest h, afterEarlier_runs hahead]

theorem exec_bookingSlotRun_waits (h : s.atRest) {day k : Nat} (hmem : Instr.bookingSlotRun day k ∈ s.due)
    (hahead : (s.ahead (.bookingSlotRun day k)).any isBookingBoundary = true) :
    exec (.bookingSlotRun day k) s = .next s.sent := by
  show execBookingSlotRun day k s = _
  rw [execBookingSlotRun, run_next h, State.settled_of_atRest h, afterEarlier_waits hahead, State.handOnce_mem hmem]

/-- Settles O26: the end of a record, the room that waited for it, and the run with its phases. -/
theorem bookingRunHasThreePhases : Obligations.BookingRunHasThreePhases := by
  refine ⟨fun s i st why at_ dirty slot r h => ?finish, fun s room => ⟨State.closeDone_other, fun hc => ?closeDone⟩,
    fun s day k => ⟨fun h => ⟨exec_bookingSlotRun_runs h, exec_bookingSlotRun_waits h⟩, fun i r h => ?phases⟩⟩
  case closeDone =>
    refine ⟨State.closeDone_closing hc, ?_, fun j hj => ?_, fun d => ?_, fun hlt => ?_, ?_, ?_⟩
    · rw [State.room_closeDone, if_pos ⟨rfl, hc⟩]
    · rw [State.room_closeDone, if_neg fun hj' => hj hj'.1]
    · rw [State.drop_closeDone, ← State.marked_bound]
      simp only [hc, true_and]
    · rw [State.closeDone_closing hc]
      exact State.latch_raise_isSet (by omega) _
    · rw [State.closeDone_frame]
    · rw [State.closeDone_frame]
  case phases =>
    intro at_ g
    refine ⟨State.endAt_inUse h, State.endAt_due h, State.endAt_other h, State.judgeAt_absent h,
      fun hst hk hv hp => (State.judgeAt_occupied h hst hk hv).trans (if_pos hp), fun ho => ?_,
      fun hst hk hshut => (State.startAt_due h hst hk).trans (if_pos (State.shut_of_not_opened hshut)),
      fun hst hk hopen he => (State.startAt_due h hst hk).trans ((if_neg (State.not_shut_of_opened hopen)).trans (if_pos he)),
      fun hst hk hopen he => (State.startAt_due h hst hk).trans ((if_neg (State.not_shut_of_opened hopen)).trans
        (if_neg (Bool.eq_false_iff.1 he))), State.startAt_other h⟩
    by_cases hd : r.state = .due ∧ r.start + (s.classOf r.room).grace ≤ k
    · obtain ⟨hst, hk⟩ := hd
      rcases ho with hv | ⟨hv, hp⟩ | hne | hlt
      · exact State.judgeAt_unknown h hst hk hv
      · exact (State.judgeAt_occupied h hst hk hv).trans (if_neg (Bool.eq_false_iff.1 hp))
      · exact absurd hst hne
      · exact absurd hk (Nat.not_le.2 hlt)
    · exact State.judgeAt_early h hd
  intro u notice closes
  have hu := State.finish_due st why at_ dirty h slot
  obtain ⟨horders, hpantries, hclock, hev, hlines, -⟩ := State.finish_keeps (s := s) (i := i) st why at_ dirty slot
  refine ⟨State.res_finish_same st why at_ dirty h slot, fun j hj => State.res_finish_other st why at_ dirty slot hj,
    fun hno => ?_, fun hn hslot => ?_, fun hn k hslot => ?_, fun hc => ?_, fun hc => ?_, fun d hm hb => ?_, fun d hb => ?_,
    horders, hpantries, hclock, hev, hlines⟩
  all_goals rw [show u = _ from hu]
  · exact if_neg hno
  · subst hslot; exact if_pos hn
  · subst hslot
    refine ⟨fun hnone => (if_pos hn).trans (insertBeforeBoundary_tail _ hnone), fun before b after hdue hnone hb =>
      (if_pos hn).trans ?_⟩
    rw [hdue]
    exact insertBeforeBoundary_split _ hnone hb
  · exact State.ended_closes st why at_ dirty hc.1
  · exact State.ended_open st why at_ dirty hc
  · exact (congrArg Drop.stale (State.drop_ended st why at_ dirty h d)).trans (by rw [if_pos ⟨hm, hb⟩])
  · exact (State.drop_ended st why at_ dirty h d).trans (if_neg fun hc => hb hc.2)

end Sys2Proof.Machine
end

section
/-! PROOFS. The Dispatcher's run of a boundary (R93 to R95). -/

namespace Sys2Proof.Machine

variable {s : State} {k : Nat}

/-! ## One order tested -/

theorem State.Queues.opensAt {t : State} (h : s.Queues t) (o : Order) : t.opensAt k o ↔ s.opensAt k o := by
  unfold State.opensAt State.orderDay
  rw [h.res, h.lead]

/-- An order as a test of its window leaves it. -/
def State.windowed (s : State) (k : Nat) (o : Order) : Order :=
  if o.state = .held ∧ s.orderDay o = some .today ∧ o.deliverBy - (s.pantry o.pantry).lead ≤ k then
    { o with state := .queued }
  else o

theorem State.windowed_opens {o : Order} (h : s.opensAt k o) : s.windowed k o = { o with state := .queued } := if_pos h

theorem State.windowed_waits {o : Order} (h : ¬s.opensAt k o) : s.windowed k o = o := if_neg h

/-- An order that is still HELD after a test waits. -/
theorem State.windowed_held {o : Order} (h : (s.windowed k o).state = .held) : ¬s.opensAt k o ∧ s.windowed k o = o := by
  by_cases ho : s.opensAt k o
  · rw [State.windowed_opens ho] at h; cases h
  · exact ⟨ho, State.windowed_waits ho⟩

theorem State.windowed_windowed (o : Order) : s.windowed k (s.windowed k o) = s.windowed k o := by
  by_cases ho : s.opensAt k o
  · rw [State.windowed_opens ho]
    exact State.windowed_waits fun h => by cases h.1
  · rw [State.windowed_waits ho, State.windowed_waits ho]

theorem State.Queues.windowed {t : State} (h : s.Queues t) (o : Order) : t.windowed k o = s.windowed k o := by
  by_cases ho : s.opensAt k o
  · rw [State.windowed_opens ho, State.windowed_opens ((h.opensAt o).2 ho)]
  · rw [State.windowed_waits ho, State.windowed_waits fun hc => ho ((h.opensAt o).1 hc)]

theorem State.order_testWindow_same (id : OrderId) :
    (s.testWindow k id).order id = (s.order id).map (s.windowed k) := by
  cases ho : s.order id with
  | none => rw [State.testWindow_none ho, ho]; rfl
  | some o =>
    by_cases hw : s.opensAt k o
    · rw [State.testWindow_opens ho hw, State.order_enqueue, if_pos (State.order_id ho).symm, ho, Option.map_some,
        Option.map_some, State.windowed_opens hw]
    · rw [State.testWindow_waits ho hw, ho, Option.map_some, State.windowed_waits hw]

/-- An order whose window has opened stands in its pantry's queue, behind those of its deliver-by slot and before. -/
theorem State.dispatch_testWindow {id : OrderId} {o : Order} (ho : s.order id = some o) (hw : s.opensAt k o)
    (hp : o.pantry < 8) : ((s.testWindow k id).pantry o.pantry).dispatch =
      insertByKey s.deliverBy id o.deliverBy (s.pantry o.pantry).dispatch := by
  rw [State.testWindow_opens ho hw, State.pantry_enqueue_same hp, State.order_id ho]

/-- No other order enters a queue. -/
theorem State.mem_dispatch_testWindow {id x : OrderId} {p : Nat}
    (h : x ∈ ((s.testWindow k id).pantry p).dispatch) : x ∈ (s.pantry p).dispatch ∨
      (x = id ∧ ∃ o, s.order id = some o ∧ o.pantry = p ∧ s.opensAt k o) := by
  cases ho : s.order id with
  | none => rw [State.testWindow_none ho] at h; exact .inl h
  | some o =>
    by_cases hw : s.opensAt k o
    case neg => rw [State.testWindow_waits ho hw] at h; exact .inl h
    by_cases hp : p = o.pantry
    · subst hp
      rcases Nat.lt_or_ge o.pantry 8 with hlt | hge
      · rw [State.dispatch_testWindow ho hw hlt, mem_insertByKey] at h
        exact h.symm.imp_right fun hx => ⟨hx, o, rfl, rfl, hw⟩
      · rw [State.pantry_beyond hge] at h
        cases h
    · rw [State.testWindow_opens ho hw, State.pantry_enqueue_other hp] at h
      exact .inl h

theorem State.deliverBy_testWindow (id : OrderId) : (s.testWindow k id).deliverBy = s.deliverBy := by
  funext x
  cases ho : s.order id with
  | none => rw [State.testWindow_none ho]
  | some o =>
    by_cases hw : s.opensAt k o
    · rw [State.testWindow_opens ho hw, State.deliverBy_enqueue]
    · rw [State.testWindow_waits ho hw]

/-! ## A run of tests -/

/-- Queues stay in the order of deliver-by slots (R95). -/
structure State.Sorts (s t : State) : Prop where
  deliverBy : t.deliverBy = s.deliverBy
  sorted : ∀ p, (s.pantry p).dispatch.Pairwise (fun a b => s.deliverBy a ≤ s.deliverBy b) →
    (t.pantry p).dispatch.Pairwise fun a b => t.deliverBy a ≤ t.deliverBy b

theorem State.Sorts.refl (s : State) : s.Sorts s := ⟨rfl, fun _ h => h⟩

theorem State.Sorts.trans {s t u : State} (hst : s.Sorts t) (htu : t.Sorts u) : s.Sorts u :=
  ⟨htu.deliverBy.trans hst.deliverBy, fun p h => htu.sorted p (hst.sorted p h)⟩

theorem State.testWindow_sorts (id : OrderId) : s.Sorts (s.testWindow k id) := by
  refine ⟨State.deliverBy_testWindow id, fun p h => ?_⟩
  rw [State.deliverBy_testWindow]
  cases ho : s.order id with
  | none => rwa [State.testWindow_none ho]
  | some o =>
    by_cases hw : s.opensAt k o
    case neg => rwa [State.testWindow_waits ho hw]
    by_cases hp : p = o.pantry
    · subst hp
      rcases Nat.lt_or_ge o.pantry 8 with hlt | hge
      · rw [State.dispatch_testWindow ho hw hlt, ← State.deliverBy_of ho]
        exact sorted_insertByKey s.deliverBy id h
      · rw [State.pantry_beyond hge]
        exact .nil
    · rwa [State.testWindow_opens ho hw, State.pantry_enqueue_other hp]

section

variable (l : List OrderId)

/-- A run of tests over some order IDs. -/
def State.testWindows (s : State) (k : Nat) (l : List OrderId) : State := l.foldl (fun t id => t.testWindow k id) s

theorem State.testWindows_queues : s.Queues (s.testWindows k l) :=
  foldl_frame State.Queues State.Queues.refl State.Queues.trans (fun _ id => State.testWindow_queues k id) l s

theorem State.testWindows_sorts : s.Sorts (s.testWindows k l) :=
  foldl_frame State.Sorts State.Sorts.refl State.Sorts.trans (fun _ id => State.testWindow_sorts id) l s

theorem State.order_testWindows (id : OrderId) : (s.testWindows k l).order id =
    if id ∈ l then (s.order id).map (s.windowed k) else s.order id := by
  induction l generalizing s with
  | nil => rfl
  | cons a l ih =>
    have hq := State.testWindow_queues (s := s) k a
    have hw : (s.testWindow k a).windowed k = s.windowed k := funext fun o => hq.windowed o
    show ((s.testWindow k a).testWindows k l).order id = _
    rw [ih, hw]
    by_cases hid : id = a
    · subst hid
      rw [if_pos List.mem_cons_self, State.order_testWindow_same]
      split
      · rw [Option.map_map]
        exact congrArg (fun f => (s.order id).map f) (funext State.windowed_windowed)
      · rfl
    · rw [State.order_testWindow_other hid]
      exact if_congr (by rw [List.mem_cons, or_iff_right hid]) rfl rfl

theorem State.mem_dispatch_of_opens {id : OrderId} {o : Order} (hid : id ∈ l) (ho : s.order id = some o)
    (hw : s.opensAt k o) (hp : o.pantry < 8) : id ∈ ((s.testWindows k l).pantry o.pantry).dispatch := by
  induction l generalizing s with
  | nil => cases hid
  | cons a l ih =>
    show id ∈ (((s.testWindow k a).testWindows k l).pantry o.pantry).dispatch
    by_cases ha : id = a
    · subst ha
      refine ((State.testWindows_queues l).grows o.pantry).subset ?_
      rw [State.dispatch_testWindow ho hw hp, mem_insertByKey]
      exact .inl rfl
    · exact ih ((List.mem_cons.1 hid).resolve_left ha) ((State.order_testWindow_other ha).trans ho)
        (((State.testWindow_queues k a).opensAt o).2 hw)

theorem State.mem_dispatch_testWindows {id : OrderId} {p : Nat} (h : id ∈ ((s.testWindows k l).pantry p).dispatch) :
    id ∈ (s.pantry p).dispatch ∨ (id ∈ l ∧ ∃ o, s.order id = some o ∧ o.pantry = p ∧ s.opensAt k o) := by
  induction l generalizing s with
  | nil => exact .inl h
  | cons a l ih =>
    rcases ih (s := s.testWindow k a) h with hmem | ⟨hmem, o, ho, hp, hw⟩
    · refine (State.mem_dispatch_testWindow hmem).imp_right fun ⟨hx, hopen⟩ => ?_
      subst hx
      exact ⟨List.mem_cons_self, hopen⟩
    · refine .inr ⟨List.mem_cons_of_mem _ hmem, o, ?_, hp, ((State.testWindow_queues k a).opensAt o).1 hw⟩
      by_cases ha : id = a
      · subst ha
        rw [State.order_testWindow_same, Option.map_eq_some_iff] at ho
        obtain ⟨o', ho', rfl⟩ := ho
        rw [(State.windowed_held hw.1).2, ho']
      · rwa [State.order_testWindow_other ha] at ho

end

theorem State.id_mem_of_order {id : OrderId} {o : Order} (h : s.order id = some o) : id ∈ s.orders.map Order.id :=
  List.mem_map.2 ⟨o, List.mem_of_find?_eq_some h, State.order_id h⟩

theorem State.order_dispatcherBoundary (id : OrderId) :
    (s.dispatcherBoundary k).order id = (s.order id).map (s.windowed k) := by
  refine (State.order_testWindows (s.orders.map Order.id) id).trans ?_
  cases ho : s.order id with
  | none => exact ite_self _
  | some o => exact if_pos (State.id_mem_of_order ho)

theorem State.dispatcherBoundary_queues : s.Queues (s.dispatcherBoundary k) := State.testWindows_queues _

theorem exec_dispatcherSlotRun_runs (h : s.atRest) (hahead : (s.ahead (.dispatcherSlotRun k)).any isDispatcherBoundary = false) :
    exec (.dispatcherSlotRun k) s = .next ((s.takeDue (.dispatcherSlotRun k)).dispatcherBoundary k).sent := by
  show execDispatcherSlotRun k s = _
  rw [execDispatcherSlotRun, run_next h, State.settled_of_atRest h, afterEarlier_runs hahead]

theorem exec_dispatcherSlotRun_waits (h : s.atRest) (hmem : Instr.dispatcherSlotRun k ∈ s.due)
    (hahead : (s.ahead (.dispatcherSlotRun k)).any isDispatcherBoundary = true) :
    exec (.dispatcherSlotRun k) s = .next s.sent := by
  show execDispatcherSlotRun k s = _
  rw [execDispatcherSlotRun, run_next h, State.settled_of_atRest h, afterEarlier_waits hahead, State.handOnce_mem hmem]

/-- Settles O27: each order by its window, and the queues by what enters them. -/
theorem dispatcherRunOpensWindows : Obligations.DispatcherRunOpensWindows := by
  refine ⟨fun s k h hmem hahead => exec_dispatcherSlotRun_waits h hmem hahead, fun s k id o ho hst hday hle hp => ?place,
    fun s k h hahead => ⟨(s.takeDue (.dispatcherSlotRun k)).dispatcherBoundary k, exec_dispatcherSlotRun_runs h hahead, ?_⟩⟩
  case place =>
    obtain ⟨before, after, hsplit, hins, hbefore, hafter⟩ :=
      insertByKey_split s.deliverBy id o.deliverBy (s.pantry o.pantry).dispatch
    exact ⟨before, after, hsplit, (State.dispatch_testWindow ho ⟨hst, hday, hle⟩ hp).trans hins, hbefore, hafter⟩
  obtain ⟨t, ht⟩ : ∃ t, t = s.takeDue (.dispatcherSlotRun k) := ⟨_, rfl⟩
  have hframe : t = { s with due := t.due } := by rw [ht]; rfl
  have hqueues : t.Queues (t.dispatcherBoundary k) := State.dispatcherBoundary_queues
  have horder : ∀ id, t.order id = s.order id := by rw [ht]; exact fun _ => rfl
  have hopens : ∀ o, t.opensAt k o ↔ s.opensAt k o := by rw [ht]; exact fun _ => Iff.rfl
  have hpantry : ∀ p, t.pantry p = s.pantry p := by rw [ht]; exact fun _ => rfl
  have hdeliver : t.deliverBy = s.deliverBy := by rw [ht]; rfl
  rw [← ht]
  refine ⟨fun id o ho hst hday hle hp => ?enters, fun p => ⟨?grows, fun id hid => ?only, fun hsorted => ?sorted⟩,
    fun id o ho hst hday => ?leaves, fun id o ho => ?each, fun p => (hqueues.pantry p).trans (by rw [hpantry]), ?frame⟩
  case enters =>
    have ho' := (horder id).trans ho
    exact State.mem_dispatch_of_opens _ (State.id_mem_of_order ho') ho' ((hopens o).2 ⟨hst, hday, hle⟩) hp
  case grows =>
    rw [← hpantry]
    exact hqueues.grows p
  case only =>
    refine (State.mem_dispatch_testWindows _ hid).imp (fun hmem => by rwa [hpantry] at hmem) ?_
    rintro ⟨-, o, ho, hp, hw⟩
    refine ⟨o, (horder id).symm.trans ho, hp, hw.1, ?_⟩
    rw [State.order_dispatcherBoundary, ho, Option.map_some, State.windowed_opens hw]
    rfl
  case sorted =>
    rw [← hpantry, ← hdeliver] at hsorted
    exact (State.testWindows_sorts _).sorted p hsorted
  case leaves =>
    rw [State.order_dispatcherBoundary, Option.map_eq_some_iff] at ho
    obtain ⟨x, hx, rfl⟩ := ho
    obtain ⟨hno, heq⟩ := State.windowed_held hst
    rw [heq] at hst hday ⊢
    have hday' : t.orderDay x = some .today := by
      rw [State.orderDay, hqueues.res] at hday
      exact hday
    rw [hqueues.lead]
    exact Nat.not_le.1 fun hle => hno ⟨hst, hday', hle⟩
  case each =>
    rw [State.order_dispatcherBoundary, horder, ho, Option.map_some]
    by_cases hw : t.opensAt k o
    · rw [State.windowed_opens hw]
      exact ⟨.queued, rfl, .inr ⟨hw.1, rfl, ((hopens o).1 hw).2⟩⟩
    · rw [State.windowed_waits hw]
      exact ⟨o.state, rfl, .inl rfl⟩
  case frame =>
    rw [hqueues.frame, hframe]
    exact ⟨rfl, rfl, rfl, rfl, rfl, rfl, rfl, rfl⟩

end Sys2Proof.Machine
end

section
/-! PROOFS. The day flush (R20, R41). -/

namespace Sys2Proof.Machine

variable {s : State}

/-! ## Causes raised beside changes of tables -/

theorem State.raiseDayFlush_withTables {t : State} (n : Nat) :
    (s.withTables t).raiseDayFlush n = (s.raiseDayFlush n).withTables t :=
  State.raise_withTables (s := { s with flushCount := satAdd 65535 s.flushCount n })

theorem State.withTables_withTables (t u : State) : (s.withTables t).withTables u = s.withTables u := rfl

theorem State.withTables_tables (t u : State) : s.withTables (t.withTables u) = s.withTables u := rfl

theorem State.markAll_withTables (t : State) : (s.withTables t).markAll = s.withTables t.markAll := rfl

/-- The rooms that wait for a CLOSE_DONE, among some. -/
def State.closingRooms (s : State) (l : List Nat) : List Nat := l.filter fun r => decide ((s.room r).service = .closing)

/-- The causes of some rooms' CLOSE_DONE. -/
def State.raiseCloseDone (s : State) (l : List Nat) : State := l.foldl (fun v r => v.raise (72 + r) .closeDone) s

/-- Some rooms' CLOSE_DONEs raise the causes of the closing ones among them, in order. -/
theorem State.closeDones_withTables {l : List Nat} (hl : l.Nodup) {t : State} (v : State) (h : t = v.withTables t) :
    l.foldl State.closeDone t = (v.raiseCloseDone (t.closingRooms l)).withTables (l.foldl State.closeDone t) := by
  induction l generalizing t v with
  | nil => exact h
  | cons r l ih =>
    obtain ⟨hr, hl⟩ := List.nodup_cons.1 hl
    have hrest : ((t.closeDone r).closingRooms l) = t.closingRooms l := by
      refine List.filter_congr fun j hj => ?_
      have hne : j ≠ r := fun e => hr (e ▸ hj)
      rw [State.room_closeDone, if_neg fun hc => hne hc.1]
    rw [List.foldl_cons]
    by_cases hc : (t.room r).service = .closing
    · have hstep : t.closeDone r = (v.raise (72 + r) .closeDone).withTables (t.closeDone r) := by
        have hset : t.setService r .closed = v.withTables (t.setService r .closed) := by
          conv_lhs => rw [h]
          rfl
        rw [State.closeDone_closing hc]
        conv_lhs => rw [hset, State.raise_withTables]
        rw [hset, State.raise_withTables]
        rfl
      have hclosing : t.closingRooms (r :: l) = r :: t.closingRooms l := List.filter_cons_of_pos (decide_eq_true hc)
      rw [hclosing, ← hrest]
      exact ih hl _ hstep
    · have hclosing : t.closingRooms (r :: l) = t.closingRooms l :=
        List.filter_cons_of_neg (by rw [decide_eq_true_eq]; exact hc)
      rw [State.closeDone_other hc, hclosing]
      exact ih hl v h

/-! ## The tables of a flushed day -/

/-- The tables of a day flush, before the CLOSE_DONEs. -/
def State.emptied (s : State) : State :=
  { s with
    pool := .replicate 768 none
    orders := []
    rooms := s.rooms.map fun e => { e with today := [], next := [] }
    pantries := s.pantries.map Pantry.flushed }

theorem State.res_emptied (i : Nat) : s.emptied.res i = none := by
  unfold State.res State.emptied
  by_cases h : i < 768 <;> simp [h]

theorem State.room_emptied (r : Nat) : s.emptied.room r = { s.room r with today := [], next := [] } := by
  unfold State.room State.emptied
  by_cases h : r < 48
  · simp [h]
  · simp [h, RoomEntry.reset]

theorem State.pantry_emptied (p : Nat) : s.emptied.pantry p = (s.pantry p).flushed := by
  unfold State.pantry State.emptied
  by_cases h : p < 8
  · simp [h]
  · simp [h]
    rfl

theorem Pantry.flushed_empty (p : Pantry) : p.flushed.dispatch = [] ∧ p.flushed.cancels = [] ∧ p.flushed.replay = [] ∧
    p.flushed.replayPos = none ∧ p.flushed.replayTimer = none := by
  unfold Pantry.flushed
  split <;> exact ⟨rfl, rfl, rfl, rfl, rfl⟩

theorem Pantry.flushed_link (p : Pantry) : p.flushed.link = if p.link = .up then .syncing else p.link := by
  unfold Pantry.flushed
  cases hl : p.link <;> simp [hl]

/-- The pool as a list of its records. -/
theorem State.pool_toList : s.pool.toList = (List.range 768).map s.res := by
  refine List.ext_getElem (by simp) fun i h1 h2 => ?_
  have hi : i < 768 := by simpa using h2
  simp [State.res, hi]

/-- The dirty records of the pool. -/
def State.dirtyCount (s : State) : Nat := ((List.range 768).filter fun i => (s.res i).any Reservation.dirty).length

theorem State.dirtyCount_eq :
    (s.pool.toList.filter fun r => match r with | some r => r.dirty | none => false).length = s.dirtyCount := by
  rw [State.pool_toList, List.filter_map, List.length_map, State.dirtyCount]
  congr 2
  funext i
  show (match s.res i with | some r => r.dirty | none => false) = (s.res i).any Reservation.dirty
  cases s.res i <;> rfl

/-! ## The day flush -/

/-- The state of a day flush before DAY_FLUSH is raised. -/
def State.flushed (s : State) : State := (allRooms.foldl State.closeDone s.emptied).markAll

theorem State.dayFlush_eq : s.dayFlush = s.flushed.raiseDayFlush s.dirtyCount := by
  rw [← State.dirtyCount_eq]
  rfl

theorem State.raiseDayFlush_frame (n : Nat) : s.raiseDayFlush n = { s with
    riser := (s.raiseDayFlush n).riser, latches := (s.raiseDayFlush n).latches, unsent := (s.raiseDayFlush n).unsent
    flushCount := (s.raiseDayFlush n).flushCount, discardCount := (s.raiseDayFlush n).discardCount } := by
  unfold State.raiseDayFlush
  rw [State.raise_frame]

/-- CLOSE_DONEs reach the rooms, the displays and the Event Unit. -/
theorem State.closeDones_frame (l : List Nat) (t : State) : l.foldl State.closeDone t = { t with
    rooms := (l.foldl State.closeDone t).rooms, drops := (l.foldl State.closeDone t).drops
    riser := (l.foldl State.closeDone t).riser, latches := (l.foldl State.closeDone t).latches
    unsent := (l.foldl State.closeDone t).unsent, flushCount := (l.foldl State.closeDone t).flushCount
    discardCount := (l.foldl State.closeDone t).discardCount } :=
  foldl_frame (fun s t => t = { s with rooms := t.rooms, drops := t.drops, riser := t.riser, latches := t.latches
                                       unsent := t.unsent, flushCount := t.flushCount, discardCount := t.discardCount })
    (fun _ => rfl) (fun {s t u} hst htu => by rw [htu, hst]) (fun _ _ => State.closeDone_frame) l t

/-- The tables that CLOSE_DONEs leave. -/
theorem State.closeDones_tables (l : List Nat) (t : State) : let u := l.foldl State.closeDone t
    u.pool = t.pool ∧ u.orders = t.orders ∧ u.pantries = t.pantries ∧ u.clock = t.clock ∧ u.evidence = t.evidence ∧
      u.classes = t.classes ∧ u.lines = t.lines ∧ u.floor = t.floor := by
  rw [State.closeDones_frame]
  exact ⟨rfl, rfl, rfl, rfl, rfl, rfl, rfl, rfl⟩

theorem State.raiseDayFlush_tables (n : Nat) : let u := s.raiseDayFlush n
    u.pool = s.pool ∧ u.orders = s.orders ∧ u.pantries = s.pantries ∧ u.clock = s.clock ∧ u.evidence = s.evidence ∧
      u.classes = s.classes ∧ u.lines = s.lines ∧ u.floor = s.floor ∧ u.rooms = s.rooms := by
  rw [State.raiseDayFlush_frame]
  exact ⟨rfl, rfl, rfl, rfl, rfl, rfl, rfl, rfl, rfl⟩

/-- What a day flush leaves of the emptied tables. -/
theorem State.dayFlush_tables : let t := s.dayFlush
    t.pool = s.emptied.pool ∧ t.orders = [] ∧ t.pantries = s.emptied.pantries ∧ t.clock = s.clock ∧
      t.evidence = s.evidence ∧ t.classes = s.classes ∧ t.lines = s.lines ∧ t.floor = s.floor ∧
      t.rooms = (allRooms.foldl State.closeDone s.emptied).rooms := by
  obtain ⟨hpool, horders, hpantries, hclock, hev, hclasses, hlines, hfloor⟩ :=
    State.closeDones_tables allRooms s.emptied
  obtain ⟨kpool, korders, kpantries, kclock, kev, kclasses, klines, kfloor, krooms⟩ :=
    State.raiseDayFlush_tables (s := s.flushed) s.dirtyCount
  obtain ⟨v, hv⟩ : ∃ v, v = allRooms.foldl State.closeDone s.emptied := ⟨_, rfl⟩
  have hflushed : s.flushed = v.markAll := by rw [hv]; rfl
  rw [hflushed] at kpool korders kpantries kclock kev kclasses klines kfloor krooms
  rw [← hv] at hpool horders hpantries hclock hev hclasses hlines hfloor ⊢
  rw [State.dayFlush_eq, hflushed]
  exact ⟨kpool.trans hpool, korders.trans horders, kpantries.trans hpantries, kclock.trans hclock, kev.trans hev,
    kclasses.trans hclasses, klines.trans hlines, kfloor.trans hfloor, krooms⟩

theorem State.room_closeDones (t : State) (r : Nat) : (allRooms.foldl State.closeDone t).room r =
    if r < 48 ∧ (t.room r).service = .closing then { t.room r with service := .closed } else t.room r := by
  have hother : ∀ t i j, j ≠ i → (State.closeDone t i).room j = t.room j :=
    fun t i j hne => by rw [State.room_closeDone, if_neg fun hc => hne hc.1]
  by_cases hr : r < 48
  · obtain ⟨u, hu, hfold⟩ := foldl_local_mem (fun t r => State.room t r) State.closeDone hother allRooms_nodup t
      (mem_allRooms.2 hr)
    refine hfold.trans ?_
    rw [State.room_closeDone, hu]
    exact if_congr (by simp [hr]) rfl rfl
  · rw [if_neg fun hc => hr hc.1]
    exact foldl_local_not_mem (fun t r => State.room t r) State.closeDone hother t fun hm => hr (mem_allRooms.1 hm)

/-- The Event Unit after a day flush: the causes of the closing rooms, then DAY_FLUSH. -/
theorem State.dayFlush_events : s.dayFlush =
    ((s.raiseCloseDone (s.closingRooms allRooms)).raiseDayFlush s.dirtyCount).withTables s.dayFlush := by
  have hclosing : s.emptied.closingRooms allRooms = s.closingRooms allRooms := by
    refine List.filter_congr fun r _ => ?_
    rw [State.room_emptied]
  have hemptied : s.emptied = s.withTables s.emptied := rfl
  have hdone := State.closeDones_withTables allRooms_nodup s hemptied
  rw [hclosing] at hdone
  have hflushed : s.flushed = (s.raiseCloseDone (s.closingRooms allRooms)).withTables s.flushed := by
    rw [State.flushed, hdone, State.markAll_withTables, State.withTables_tables]
  rw [State.dayFlush_eq, hflushed, State.raiseDayFlush_withTables, State.withTables_tables]

/-- What a state that differs in its tables alone has of the Event Unit. -/
theorem State.events_of_withTables {t u : State} (h : t = u.withTables t) : t.latches = u.latches ∧
    t.unsent = u.unsent ∧ t.flushCount = u.flushCount ∧ t.discardCount = u.discardCount ∧ t.riser = u.riser :=
  ⟨(congrArg State.latches h).trans rfl, (congrArg State.unsent h).trans rfl, (congrArg State.flushCount h).trans rfl,
    (congrArg State.discardCount h).trans rfl, (congrArg State.riser h).trans rfl⟩

/-- Settles O29: the tables as they are emptied, the rooms, and the causes in order. -/
theorem dayFlushFreesEveryRecord : Obligations.DayFlushFreesEveryRecord := by
  intro s t
  obtain ⟨hpool, horders, hpantries, hclock, hev, hclasses, hlines, hfloor, hrooms⟩ := State.dayFlush_tables (s := s)
  have hroom : ∀ r, t.room r = (allRooms.foldl State.closeDone s.emptied).room r := by
    intro r
    rw [State.room, hrooms]
    rfl
  have hpantry : ∀ p, t.pantry p = (s.pantry p).flushed := by
    intro p
    rw [← State.pantry_emptied, State.pantry, hpantries]
    rfl
  refine ⟨fun i => ?res, horders, fun r => ?room, fun p => ?pantry, ?events, ?latch, hclock, hev, hclasses, hlines, hfloor⟩
  case res =>
    rw [← State.res_emptied (s := s) i, State.res, hpool]
    rfl
  case room =>
    rw [hroom, State.room_closeDones, State.room_emptied]
    by_cases hc : r < 48 ∧ (s.room r).service = .closing
    · rw [if_pos hc]
      exact ⟨rfl, rfl, rfl, fun _ => (if_pos hc.2).symm⟩
    · rw [if_neg hc]
      exact ⟨rfl, rfl, rfl, fun hr => (if_neg fun hs => hc ⟨hr, hs⟩).symm⟩
  case pantry =>
    obtain ⟨hdispatch, hcancels, hreplay, hpos, htimer⟩ := (s.pantry p).flushed_empty
    rw [hpantry]
    exact ⟨hdispatch, hcancels, hreplay, hpos, htimer, (s.pantry p).flushed_link⟩
  case events => exact State.events_of_withTables State.dayFlush_events
  case latch =>
    rw [show t = _ from State.dayFlush_eq]
    exact State.latch_raise_isSet (by decide) _

end Sys2Proof.Machine
end

section
/-! PROOFS. The rollover and the day boundary (R15, R37 to R40). -/

namespace Sys2Proof.Machine

variable {s : State}

/-! ## Changes of tables -/

/-- A change of records, rooms, orders, pantries and drops alone. -/
def State.Tabled (s t : State) : Prop := t = s.withTables t

theorem State.Tabled.refl (s : State) : s.Tabled s := rfl

theorem State.Tabled.trans {s t u : State} (hst : s.Tabled t) (htu : t.Tabled u) : s.Tabled u := by
  unfold State.Tabled at *
  conv_lhs => rw [htu, hst]
  rfl

theorem State.freeRecord_tabled (i : Nat) : s.Tabled (s.freeRecord i) := State.freeRecord_frame

theorem State.raiseDiscarded_withTables {t : State} (n : Nat) :
    (s.withTables t).raiseDiscarded n = (s.raiseDiscarded n).withTables t := by
  unfold State.raiseDiscarded
  by_cases h : n = 0
  · rw [if_pos h, if_pos h]
  · rw [if_neg h, if_neg h]
    exact State.raise_withTables (s := { s with discardCount := satAdd 65535 s.discardCount n })

theorem State.raiseDiscarded_frame (n : Nat) : s.raiseDiscarded n = { s with
    riser := (s.raiseDiscarded n).riser, latches := (s.raiseDiscarded n).latches, unsent := (s.raiseDiscarded n).unsent
    flushCount := (s.raiseDiscarded n).flushCount, discardCount := (s.raiseDiscarded n).discardCount } := by
  unfold State.raiseDiscarded
  split
  · rfl
  · rw [State.raise_frame]

theorem State.raise_receive (i : Nat) (c : Cause) : (s.raise i c).riser.receive = s.riser.receive := by
  rw [State.raise_riser_frame]

theorem State.raiseDiscarded_receive (n : Nat) : (s.raiseDiscarded n).riser.receive = s.riser.receive := by
  unfold State.raiseDiscarded
  split
  · rfl
  · exact State.raise_receive _ _

/-! ## Records freed (R30, R37) -/

/-- A frame of an order that has been freed carries no order (R103). -/
def ReplayFrame.cleared (ids : List OrderId) (f : ReplayFrame) : ReplayFrame :=
  if f.order.any ids.contains then { f with order := none } else f

theorem ReplayFrame.cleared_cleared (xs ys : List OrderId) (f : ReplayFrame) :
    (f.cleared xs).cleared ys = f.cleared (xs ++ ys) := by
  cases ho : f.order with
  | none => simp [ReplayFrame.cleared, ho]
  | some id =>
    by_cases hx : id ∈ xs
    · have hfirst : f.cleared xs = { f with order := none } := if_pos (by simp [ho, hx])
      have hboth : f.cleared (xs ++ ys) = { f with order := none } := if_pos (by simp [ho, hx])
      rw [hfirst, hboth]
      exact if_neg (by simp)
    · have hfirst : f.cleared xs = f := if_neg (by simp [ho, hx])
      rw [hfirst]
      exact if_congr (by simp [ho, hx]) rfl rfl

/-- The orders of the record at an index. -/
def State.ordersOf (s : State) (i : Nat) : List OrderId := ((s.res i).map Reservation.orders).getD []

theorem State.pantry_freeOrders (ids : List OrderId) (p : Nat) : (s.freeOrders ids).pantry p =
    { s.pantry p with replay := (s.pantry p).replay.map (ReplayFrame.cleared ids) } := by
  have hclear : (fun f : ReplayFrame => match f.order with
      | some id => if ids.contains id then { f with order := none } else f
      | none => f) = ReplayFrame.cleared ids := by
    funext f
    unfold ReplayFrame.cleared
    cases f.order <;> simp
  have hpantries : (s.freeOrders ids).pantries = s.pantries.map fun p =>
      { p with replay := p.replay.map (ReplayFrame.cleared ids) } := by
    rw [← hclear]
    rfl
  unfold State.pantry
  rw [hpantries]
  by_cases h : p < 8
  · simp [h]
  · rw [Vector.getElem?_eq_none (Nat.not_lt.1 h), Vector.getElem?_eq_none (Nat.not_lt.1 h)]
    rfl

theorem State.pantry_unlist (r : Reservation) (i p : Nat) : (s.unlist i r).pantry p = s.pantry p := by
  rw [State.unlist_frame]; rfl

theorem State.pantry_freeRecord (i p : Nat) : (s.freeRecord i).pantry p =
    { s.pantry p with replay := (s.pantry p).replay.map (ReplayFrame.cleared (s.ordersOf i)) } := by
  cases h : s.res i with
  | none =>
    have hclear : ReplayFrame.cleared (s.ordersOf i) = id := by
      funext f
      rw [State.ordersOf, h]
      unfold ReplayFrame.cleared
      cases ho : f.order <;> simp [ho]
    rw [State.freeRecord_none h, hclear, List.map_id]
  | some r =>
    have hids : s.ordersOf i = r.orders := by rw [State.ordersOf, h]; rfl
    have hfree := State.pantry_freeOrders (s := s.unlist i r) r.orders p
    rw [State.pantry_unlist] at hfree
    rw [State.freeRecord_some h, hids]
    exact hfree

section

variable {l : List Nat} (hl : l.Nodup)

theorem State.freeRecords_tabled (l : List Nat) (t : State) : t.Tabled (l.foldl State.freeRecord t) :=
  foldl_frame State.Tabled State.Tabled.refl State.Tabled.trans (fun _ i => State.freeRecord_tabled i) l t

theorem State.res_freeRecords_other (t : State) {i : Nat} (hi : i ∉ l) : (l.foldl State.freeRecord t).res i = t.res i :=
  foldl_local_not_mem (fun t i => State.res t i) State.freeRecord (fun _ _ _ h => State.res_freeRecord_other h) t hi

include hl in
theorem State.res_freeRecords_mem (t : State) {i : Nat} (hi : i ∈ l) : (l.foldl State.freeRecord t).res i = none := by
  obtain ⟨u, -, hfold⟩ := foldl_local_mem (fun t i => State.res t i) State.freeRecord
    (fun _ _ _ h => State.res_freeRecord_other h) hl t hi
  exact hfold.trans State.res_freeRecord_same

theorem State.order_freeRecord_ordersOf (t : State) (i : Nat) (id : OrderId) :
    (t.freeRecord i).order id = if id ∈ t.ordersOf i then none else t.order id := by
  cases h : t.res i with
  | none =>
    have hids : t.ordersOf i = [] := by rw [State.ordersOf, h]; rfl
    rw [State.freeRecord_none h, hids, if_neg List.not_mem_nil]
  | some r =>
    have hids : t.ordersOf i = r.orders := by rw [State.ordersOf, h]; rfl
    rw [State.order_freeRecord h, hids]

theorem State.ordersOf_freeRecord_other {t : State} {i j : Nat} (h : j ≠ i) :
    (t.freeRecord i).ordersOf j = t.ordersOf j := by
  rw [State.ordersOf, State.ordersOf, State.res_freeRecord_other h]

/-- The orders of some records, as they are freed one after another. -/
theorem flatMap_ordersOf_freeRecord {t : State} {i : Nat} (hi : i ∉ l) :
    l.flatMap (t.freeRecord i).ordersOf = l.flatMap t.ordersOf :=
  List.flatMap_congr fun _ hj => State.ordersOf_freeRecord_other fun e => hi (e ▸ hj)

include hl in
/-- The orders of freed records are freed, and no other. -/
theorem State.order_freeRecords (t : State) (id : OrderId) : (l.foldl State.freeRecord t).order id =
    if id ∈ l.flatMap t.ordersOf then none else t.order id := by
  induction l generalizing t with
  | nil => rfl
  | cons i l ih =>
    obtain ⟨hi, hl⟩ := List.nodup_cons.1 hl
    rw [List.foldl_cons, ih hl, flatMap_ordersOf_freeRecord hi, State.order_freeRecord_ordersOf, List.flatMap_cons]
    by_cases hfirst : id ∈ t.ordersOf i
    · rw [if_pos hfirst, ite_self, if_pos (List.mem_append_left _ hfirst)]
    · rw [if_neg hfirst]
      exact if_congr (by rw [List.mem_append, or_iff_right hfirst]) rfl rfl

include hl in
/-- The frames of freed orders carry no order. -/
theorem State.pantry_freeRecords (t : State) (p : Nat) : (l.foldl State.freeRecord t).pantry p =
    { t.pantry p with replay := (t.pantry p).replay.map (ReplayFrame.cleared (l.flatMap t.ordersOf)) } := by
  induction l generalizing t with
  | nil =>
    have hclear : ReplayFrame.cleared ([].flatMap t.ordersOf) = id := by
      funext f
      unfold ReplayFrame.cleared
      cases ho : f.order <;> simp
    rw [hclear, List.map_id]
    rfl
  | cons i l ih =>
    obtain ⟨hi, hl⟩ := List.nodup_cons.1 hl
    rw [List.foldl_cons, ih hl, flatMap_ordersOf_freeRecord hi, State.pantry_freeRecord, List.flatMap_cons, List.map_map]
    have hclear : ReplayFrame.cleared (l.flatMap t.ordersOf) ∘ ReplayFrame.cleared (t.ordersOf i) =
        ReplayFrame.cleared (t.ordersOf i ++ l.flatMap t.ordersOf) := funext fun f => ReplayFrame.cleared_cleared _ _ f
    rw [hclear]

end

/-- A PAST record stands in no room's list. -/
theorem State.rooms_freeRecord_past {i : Nat} (h : ∀ r, s.res i = some r → r.day = .past) :
    (s.freeRecord i).rooms = s.rooms := by
  cases hr : s.res i with
  | none => rw [State.freeRecord_none hr]
  | some r =>
    rw [State.freeRecord_some hr]
    show (s.unlist i r).rooms = s.rooms
    unfold State.unlist
    rw [h r hr]
    exact updAt_id s.rooms r.room fun _ _ => rfl

theorem State.rooms_freeRecords_past {l : List Nat} (t : State) (h : ∀ i ∈ l, ∀ r, t.res i = some r → r.day = .past) :
    (l.foldl State.freeRecord t).rooms = t.rooms := by
  induction l generalizing t with
  | nil => rfl
  | cons i l ih =>
    rw [List.foldl_cons, ih, State.rooms_freeRecord_past (h i List.mem_cons_self)]
    intro j hj r hr
    by_cases hji : j = i
    · subst hji
      rw [State.res_freeRecord_same] at hr
      cases hr
    · rw [State.res_freeRecord_other hji] at hr
      exact h j (List.mem_cons_of_mem _ hj) r hr

/-! ## The PAST set freed (R37) -/

/-- The indices of the PAST set. -/
def State.pastSet (s : State) : List Nat := (List.range 768).filter fun i => (s.res i).map Reservation.day = some .past

theorem State.mem_pastSet {i : Nat} : i ∈ s.pastSet ↔ ∃ r, s.res i = some r ∧ r.day = .past := by
  rw [State.pastSet, List.mem_filter, decide_eq_true_eq, Option.map_eq_some_iff]
  exact ⟨And.right, fun ⟨r, hr, hd⟩ => ⟨List.mem_range.2 (State.res_index hr), r, hr, hd⟩⟩

theorem State.pastSet_nodup : s.pastSet.Nodup := List.nodup_range.filter _

/-- The orders of the PAST set. -/
def State.pastOrders (s : State) : List OrderId := s.pastSet.flatMap s.ordersOf

theorem State.mem_pastOrders {id : OrderId} :
    id ∈ s.pastOrders ↔ ∃ i r, s.res i = some r ∧ r.day = .past ∧ id ∈ r.orders := by
  rw [State.pastOrders, List.mem_flatMap]
  constructor
  · rintro ⟨i, hi, hid⟩
    obtain ⟨r, hr, hd⟩ := State.mem_pastSet.1 hi
    rw [State.ordersOf, hr] at hid
    exact ⟨i, r, hr, hd, hid⟩
  · rintro ⟨i, r, hr, hd, hid⟩
    refine ⟨i, State.mem_pastSet.2 ⟨r, hr, hd⟩, ?_⟩
    rw [State.ordersOf, hr]
    exact hid

/-- An order is SENT or CANCEL_PENDING. -/
def State.flies (s : State) (id : OrderId) : Bool := ((s.order id).map fun o => o.state.inFlight).getD false

theorem State.flies_iff {id : OrderId} :
    s.flies id = true ↔ ∃ o, s.order id = some o ∧ (o.state = .sent ∨ o.state = .cancelPending) := by
  cases ho : s.order id with
  | none => simp [State.flies, ho]
  | some o => cases hst : o.state <;> simp [State.flies, ho, hst, OrderState.inFlight]

/-- The orders of the PAST set whose frames and CANCELs go. -/
def State.goneOrders (s : State) : List OrderId := s.pastOrders.filter s.flies

/-- The dirty records of the PAST set. -/
def State.lostCount (s : State) : Nat :=
  (s.pastSet.filter fun i => ((s.res i).map Reservation.dirty).getD false).length

theorem State.lostCount_eq : s.lostCount =
    ((List.range 768).filter fun i => (s.res i).any fun r => decide (r.day = .past) && r.dirty).length := by
  rw [State.lostCount, State.pastSet, List.filter_filter]
  congr 2
  funext i
  cases hr : s.res i with
  | none => simp
  | some r => simp [Bool.and_comm]

/-- The PAST set's frames and CANCELs gone, its records not yet freed. -/
def State.pastGone (s : State) : State := { s with pantries := s.pantries.map fun p => p.dropOrders s.goneOrders }

theorem State.rollPast_eq : s.rollPast = (s.pastSet.foldl State.freeRecord s.pastGone).raiseDiscarded s.lostCount := by
  unfold State.rollPast State.pastSet State.pastGone State.goneOrders State.lostCount State.pastOrders
  rfl

end Sys2Proof.Machine
end

section
/-! PROOFS. The rollover's steps (R37 to R40) and the day boundary (R15). -/

namespace Sys2Proof.Machine

variable {s : State}

/-! ## Reads of tables -/

section

variable (t : State)

theorem State.res_withTables (i : Nat) : (s.withTables t).res i = t.res i := rfl

theorem State.order_withTables (id : OrderId) : (s.withTables t).order id = t.order id := rfl

theorem State.pantry_withTables (p : Nat) : (s.withTables t).pantry p = t.pantry p := rfl

theorem State.rooms_withTables : (s.withTables t).rooms = t.rooms := rfl

variable {t} in
theorem State.discards_of_withTables {u v : State} (h : u = v.withTables t) : u.latches = v.latches ∧
    u.unsent = v.unsent ∧ u.discardCount = v.discardCount ∧ u.riser = v.riser := by
  subst h
  exact ⟨rfl, rfl, rfl, rfl⟩

variable {t} in
theorem State.records_of_withTables {u v : State} (h : u = v.withTables t) : u.clock = v.clock ∧
    u.evidence = v.evidence ∧ u.lines = v.lines := by
  subst h
  exact ⟨rfl, rfl, rfl⟩

theorem State.raiseDiscarded_records (n : Nat) : (s.raiseDiscarded n).clock = s.clock ∧
    (s.raiseDiscarded n).evidence = s.evidence ∧ (s.raiseDiscarded n).lines = s.lines := by
  rw [State.raiseDiscarded_frame]
  exact ⟨rfl, rfl, rfl⟩

theorem State.room_markAll (j : Nat) : s.markAll.room j = s.room j := rfl

theorem State.markAll_tabled : s.Tabled s.markAll := rfl

end

/-! ## The first step (R37) -/

/-- The state in which the PAST set has been freed. -/
def State.pastFreed (s : State) : State := s.pastSet.foldl State.freeRecord s.pastGone

theorem State.pastFreed_tabled : s.Tabled s.pastFreed :=
  State.Tabled.trans (t := s.pastGone) rfl (State.freeRecords_tabled s.pastSet s.pastGone)

/-- The first step is the freeing, with the report of the dirty records lost. -/
theorem State.rollPast_withTables : s.rollPast = (s.raiseDiscarded s.lostCount).withTables s.pastFreed := by
  have h : s.pastFreed = s.withTables s.pastFreed := State.pastFreed_tabled
  have hroll : s.rollPast = s.pastFreed.raiseDiscarded s.lostCount := State.rollPast_eq
  rw [hroll]
  conv_lhs => rw [h, State.raiseDiscarded_withTables]

theorem State.ordersOf_pastGone : s.pastGone.ordersOf = s.ordersOf := rfl

theorem State.res_rollPast (i : Nat) : s.rollPast.res i = s.pastFreed.res i := by
  rw [State.rollPast_withTables, State.res_withTables]

theorem State.order_rollPast (id : OrderId) : s.rollPast.order id = if id ∈ s.pastOrders then none else s.order id := by
  rw [State.rollPast_withTables, State.order_withTables, State.pastFreed, State.order_freeRecords State.pastSet_nodup,
    State.ordersOf_pastGone, State.pastOrders]
  rfl

theorem State.pantry_pastGone (p : Nat) : s.pastGone.pantry p = (s.pantry p).dropOrders s.goneOrders := by
  unfold State.pantry State.pastGone
  by_cases h : p < 8
  · simp [h]
  · simp only [Vector.getElem?_eq_none (Nat.not_lt.1 h)]
    rfl

theorem State.pantry_rollPast (p : Nat) : s.rollPast.pantry p =
    { (s.pantry p).dropOrders s.goneOrders with
      replay := ((s.pantry p).dropOrders s.goneOrders).replay.map (ReplayFrame.cleared s.pastOrders) } := by
  rw [State.rollPast_withTables, State.pantry_withTables, State.pastFreed,
    State.pantry_freeRecords State.pastSet_nodup, State.ordersOf_pastGone, State.pantry_pastGone, State.pastOrders]

theorem State.rollPast_rooms : s.rollPast.rooms = s.rooms := by
  rw [State.rollPast_withTables, State.rooms_withTables, State.pastFreed, State.rooms_freeRecords_past]
  · rfl
  · intro i hi r hr
    obtain ⟨x, hx, hd⟩ := State.mem_pastSet.1 hi
    rw [Option.some.inj (hr.symm.trans hx), hd]

/-- The frames that stay in a pantry's replay list. -/
def Pantry.keptFrames (p : Pantry) (ids : List OrderId) : List ReplayFrame :=
  p.replay.filter fun f => !(f.order.any ids.contains)

theorem Pantry.dropOrders_eq (p : Pantry) (ids : List OrderId) : p.dropOrders ids =
    if (p.keptFrames ids).length < p.replay.length ∧ p.link = .up then
      { p with replay := p.keptFrames ids, cancels := p.cancels.filter fun i => !ids.contains i
               link := .syncing, replayPos := none, replayTimer := none }
    else { p with replay := p.keptFrames ids, cancels := p.cancels.filter fun i => !ids.contains i } := by
  have hkept : ∀ keep : ReplayFrame → Bool, (∀ f, keep f = !(f.order.any ids.contains)) →
      p.replay.filter keep = p.keptFrames ids := fun keep h => List.filter_congr fun f _ => h f
  show (if (p.replay.filter _).length < p.replay.length ∧ p.link = .up then Pantry.leaveUp _ .syncing else _) = _
  rw [hkept _ fun f => by cases f.order <;> rfl]
  rfl

/-! ## The second step (R38) -/

section

variable {id : OrderId} {o : Order}

theorem State.retireOrder_none (h : s.order id = none) : s.retireOrder id = s := by
  rw [State.retireOrder, h]

variable (h : s.order id = some o)
include h

theorem State.retireOrder_held (hst : o.state = .held) :
    s.retireOrder id = s.modOrder id fun o => { o with state := .cancelled } := by
  simp only [State.retireOrder, h, hst]

theorem State.retireOrder_queued (hst : o.state = .queued) : s.retireOrder id =
    (s.modPantry o.pantry fun p => { p with dispatch := p.dispatch.filter fun i => decide (i ≠ id) }).modOrder id fun o =>
      { o with state := .cancelled } := by
  rw [← order_id h]
  simp only [State.retireOrder, order_id h, h, hst, State.leaveDispatch]

theorem State.retireOrder_accepted (hst : o.state = .accepted) :
    s.retireOrder id = s.modOrder id fun o => { o with state := .expired } := by
  simp only [State.retireOrder, h, hst]

theorem State.retireOrder_other (h1 : o.state ≠ .held) (h2 : o.state ≠ .queued) (h3 : o.state ≠ .accepted) :
    s.retireOrder id = s := by
  simp only [State.retireOrder, h]

end

/-- What a retiring does to orders and dispatch queues. -/
theorem State.retireOrder_frame (id : OrderId) : s.retireOrder id = { s with
    orders := (s.retireOrder id).orders, pantries := (s.retireOrder id).pantries } := by
  unfold State.retireOrder
  split
  · split <;> rfl
  · rfl

theorem State.order_setState (id x : OrderId) (st : OrderState) :
    (s.modOrder id fun o => { o with state := st }).order x =
      if x = id then (s.order x).map fun o => { o with state := st } else s.order x :=
  State.order_modOrder id x _ fun _ => rfl

/-- An order that is set to a state, as it and the new state are not in flight. -/
theorem State.flies_setState {id : OrderId} {o : Order} (h : s.order id = some o) {st : OrderState}
    (hfrom : o.state.inFlight = false) (hto : st.inFlight = false) (x : OrderId) :
    (s.modOrder id fun o => { o with state := st }).flies x = s.flies x := by
  unfold State.flies
  rw [State.order_setState]
  by_cases hx : x = id
  · subst hx
    rw [if_pos rfl, h]
    simp [hfrom, hto]
  · rw [if_neg hx]

/-- A retiring neither ends nor starts an order's flight. -/
theorem State.flies_retireOrder (id x : OrderId) : (s.retireOrder id).flies x = s.flies x := by
  cases ho : s.order id with
  | none => rw [State.retireOrder_none ho]
  | some o =>
    by_cases h1 : o.state = .held
    · rw [State.retireOrder_held ho h1]
      exact State.flies_setState ho (by rw [h1]; rfl) rfl x
    by_cases h2 : o.state = .queued
    · rw [State.retireOrder_queued ho h2]
      exact State.flies_setState (s := s.modPantry o.pantry _) ho (by rw [h2]; rfl) rfl x
    by_cases h3 : o.state = .accepted
    · rw [State.retireOrder_accepted ho h3]
      exact State.flies_setState ho (by rw [h3]; rfl) rfl x
    · rw [State.retireOrder_other ho h1 h2 h3]

section

variable {i : Nat} {r : Reservation}

/-- The state in which a record's orders are settled. -/
def State.settledOrders (s : State) (r : Reservation) : State := r.orders.foldl State.retireOrder s

theorem State.settledOrders_frame : s.settledOrders r = { s with
    orders := (s.settledOrders r).orders, pantries := (s.settledOrders r).pantries } :=
  foldl_frame (fun s t => t = { s with orders := t.orders, pantries := t.pantries }) (fun _ => rfl)
    (fun {s t u} hst htu => by rw [htu, hst]) (fun _ id => State.retireOrder_frame id) r.orders s

theorem State.flies_settledOrders (x : OrderId) : (s.settledOrders r).flies x = s.flies x :=
  foldl_read (fun s => s.flies x) (fun _ id => State.flies_retireOrder id x) r.orders s

theorem State.res_settledOrders (j : Nat) : (s.settledOrders r).res j = s.res j := by
  rw [State.settledOrders_frame]; rfl

theorem State.room_settledOrders (j : Nat) : (s.settledOrders r).room j = s.room j := by
  rw [State.settledOrders_frame]; rfl

variable (h : s.res i = some r)
include h

theorem State.retire_eq : s.retire i =
    if r.dirty = false ∧ r.orders.any s.flies = false then (s.settledOrders r).freeRecord i
    else ((s.settledOrders r).unlist i r).setRes i (some { r with day := .past, version := r.version + 1 }) := by
  have hopen : (r.orders.any fun id => (((s.settledOrders r).order id).map fun o => o.state.inFlight).getD false) =
      r.orders.any s.flies := List.any_congr rfl fun id => State.flies_settledOrders id
  rw [State.retire, h]
  show (if (!r.dirty && !(r.orders.any fun id =>
      (((s.settledOrders r).order id).map fun o => o.state.inFlight).getD false)) = true then _ else _) = _
  rw [hopen]
  exact if_congr (by simp) rfl rfl

theorem State.retire_freed (hd : r.dirty = false) (hf : r.orders.any s.flies = false) :
    s.retire i = (s.settledOrders r).freeRecord i := (State.retire_eq h).trans (if_pos ⟨hd, hf⟩)

theorem State.retire_moved (ho : r.dirty = true ∨ r.orders.any s.flies = true) : s.retire i =
    ((s.settledOrders r).unlist i r).setRes i (some { r with day := .past, version := r.version + 1 }) := by
  refine (State.retire_eq h).trans (if_neg ?_)
  rintro ⟨hd, hf⟩
  rcases ho with ho | ho
  · exact Bool.false_ne_true (hd.symm.trans ho)
  · exact Bool.false_ne_true (hf.symm.trans ho)

/-- A retired record leaves its room's list. -/
theorem State.room_retire (j : Nat) : (s.retire i).room j = ((s.settledOrders r).unlist i r).room j := by
  rw [State.retire_eq h]
  split
  · rw [State.freeRecord_some ((State.res_settledOrders i).trans h)]
    rfl
  · rfl

theorem State.not_mem_today_retire (hd : r.day = .today) : i ∉ ((s.retire i).room r.room).today := by
  rw [State.room_retire h, State.room_unlist]
  by_cases hr : r.room < 48
  · have hlist := State.dayList_modList_same (s := s.settledOrders r) hr (day := r.day)
      (fun l => l.filter fun j => decide (j ≠ i)) fun _ => rfl
    rw [hd] at hlist
    intro hmem
    rw [hd, show (((s.settledOrders r).modList r.room .today fun l => l.filter fun j => decide (j ≠ i)).room
      r.room).today = _ from hlist] at hmem
    exact of_decide_eq_true (List.mem_filter.1 hmem).2 rfl
  · simp [State.room, hr, RoomEntry.reset]

omit h in
theorem State.res_retire_other {j : Nat} (hj : j ≠ i) : (s.retire i).res j = s.res j := by
  cases hr : s.res i with
  | none => rw [State.retire, hr]
  | some r =>
    rw [State.retire_eq hr]
    split
    · rw [State.res_freeRecord_other hj, State.res_settledOrders]
    · rw [State.res_setRes_other hj, State.res_unlist, State.res_settledOrders]

omit h in
theorem State.retire_tabled : s.Tabled (s.retire i) := by
  cases hr : s.res i with
  | none => rw [State.retire, hr]; exact .refl s
  | some r =>
    have hset : s.Tabled (s.settledOrders r) := by
      rw [State.settledOrders_frame]; exact rfl
    rw [State.retire_eq hr]
    split
    · exact hset.trans (State.freeRecord_tabled i)
    · exact hset.trans (by rw [State.unlist_frame]; exact rfl)

end

/-! ## The third step (R40) -/

section

variable {room : Nat}

/-- A record of a NEXT list in the TODAY list. -/
def State.promoteOne (s : State) (i : Nat) : State :=
  match s.res i with
  | some r => s.setRes i (some { r with day := .today, version := r.version + 1 })
  | none => s

/-- The room's NEXT list as its TODAY list. -/
def State.promoteList (s : State) (room : Nat) : State :=
  s.modRoom room fun e => { e with today := e.next, next := [] }

theorem State.promote_eq : s.promote room = (s.room room).next.foldl State.promoteOne (s.promoteList room) := rfl

theorem State.promoteOne_frame (i : Nat) : s.promoteOne i = { s with pool := (s.promoteOne i).pool } := by
  unfold State.promoteOne
  split <;> rfl

theorem State.res_promoteOne_other {i j : Nat} (h : j ≠ i) : (s.promoteOne i).res j = s.res j := by
  unfold State.promoteOne
  split
  · exact State.res_setRes_other h _
  · rfl

theorem State.res_promoteOne_same {i : Nat} {r : Reservation} (h : s.res i = some r) :
    (s.promoteOne i).res i = some { r with day := .today, version := r.version + 1 } := by
  simp only [State.promoteOne, h]
  exact State.res_setRes_same (State.res_index h) _

theorem State.promoteOnes_frame (l : List Nat) (t : State) :
    l.foldl State.promoteOne t = { t with pool := (l.foldl State.promoteOne t).pool } :=
  foldl_frame (fun s t => t = { s with pool := t.pool }) (fun _ => rfl) (fun {s t u} hst htu => by rw [htu, hst])
    (fun _ i => State.promoteOne_frame i) l t

theorem State.room_promote (j : Nat) : (s.promote room).room j = (s.promoteList room).room j := by
  rw [State.promote_eq, State.promoteOnes_frame]; rfl

theorem State.room_promote_same (h : room < 48) :
    (s.promote room).room room = { s.room room with today := (s.room room).next, next := [] } := by
  rw [State.room_promote, State.promoteList, State.room_modRoom_same h]

theorem State.room_promote_other {j : Nat} (h : j ≠ room) : (s.promote room).room j = s.room j := by
  rw [State.room_promote, State.promoteList, State.room_modRoom_other h]

theorem State.res_promote_other {i : Nat} (h : i ∉ (s.room room).next) : (s.promote room).res i = s.res i := by
  rw [State.promote_eq]
  exact foldl_local_not_mem (fun t i => State.res t i) State.promoteOne (fun _ _ _ h => State.res_promoteOne_other h) _ h

theorem State.res_promote_mem (hl : (s.room room).next.Nodup) {i : Nat} (hi : i ∈ (s.room room).next) {r : Reservation}
    (h : s.res i = some r) : (s.promote room).res i = some { r with day := .today, version := r.version + 1 } := by
  obtain ⟨u, hu, hfold⟩ := foldl_local_mem (fun t i => State.res t i) State.promoteOne
    (fun _ _ _ h => State.res_promoteOne_other h) hl (s.promoteList room) hi
  rw [State.promote_eq]
  exact hfold.trans (State.res_promoteOne_same (hu.trans h))

theorem State.promote_tabled : s.Tabled (s.promote room) := by
  have hlist : s.Tabled (s.promoteList room) := rfl
  rw [State.promote_eq]
  exact hlist.trans (by rw [State.promoteOnes_frame]; exact rfl)

end

/-! ## The rollover -/

/-- The TODAY lists retired, room by room. -/
def State.retireRooms (s : State) (rooms : List Nat) : State :=
  rooms.foldl (fun t room => ((t.room room).today).foldl State.retire t) s

/-- The NEXT lists promoted, room by room. -/
def State.promoteRooms (s : State) (rooms : List Nat) : State := rooms.foldl State.promote s

theorem State.rollover_eq : s.rollover = ((s.rollPast.retireRooms allRooms).promoteRooms allRooms).markAll := rfl

theorem State.retireRooms_tabled (rooms : List Nat) : s.Tabled (s.retireRooms rooms) :=
  foldl_frame State.Tabled State.Tabled.refl State.Tabled.trans
    (fun t room => foldl_frame State.Tabled State.Tabled.refl State.Tabled.trans (fun _ _ => State.retire_tabled)
      ((t.room room).today) t) rooms s

theorem State.promoteRooms_tabled (rooms : List Nat) : s.Tabled (s.promoteRooms rooms) :=
  foldl_frame State.Tabled State.Tabled.refl State.Tabled.trans (fun _ _ => State.promote_tabled) rooms s

/-- A rollover changes tables, and raises DIRTY_DISCARDED. -/
theorem State.rollover_tabled : s.rollPast.Tabled s.rollover := by
  rw [State.rollover_eq]
  exact ((State.retireRooms_tabled allRooms).trans (State.promoteRooms_tabled allRooms)).trans State.markAll_tabled

/-- A rollover leaves no NEXT list a record. -/
theorem State.next_rollover (r : Nat) : (s.rollover.room r).next = [] := by
  obtain ⟨t, ht⟩ : ∃ t, t = s.rollPast.retireRooms allRooms := ⟨_, rfl⟩
  have hroom : s.rollover.room r = (t.promoteRooms allRooms).room r := by
    rw [State.rollover_eq, ← ht, State.room_markAll]
  rw [hroom]
  by_cases hr : r < 48
  · obtain ⟨u, -, hfold⟩ := foldl_local_mem (fun t r => State.room t r) State.promote
      (fun _ _ _ h => State.room_promote_other h) allRooms_nodup t (mem_allRooms.2 hr)
    refine congrArg RoomEntry.next (hfold.trans (State.room_promote_same hr))
  · simp [State.room, hr, RoomEntry.reset]

theorem exec_dayBoundary_runs (h : s.atRest) {old : Nat} (hset : s.clock.isSet = true)
    (hahead : (s.ahead (.dayBoundary old)).any isBoundaryWork = false) :
    exec (.dayBoundary old) s = .next (((((((s.takeDue (.dayBoundary old)).bookingBoundary old 288).dispatcherBoundary
      288).rollover).bookingBoundary ((old + 1) % 65536) 0).dispatcherBoundary 0).markAll).sent := by
  show execDayBoundary old s = _
  rw [execDayBoundary, run_next h, State.settled_of_atRest h, afterEarlier_runs hahead]
  exact congrArg (fun u : State => Host.Outcome.next u.sent) (if_pos hset)

theorem exec_dayBoundary_waits (h : s.atRest) {old : Nat} (hmem : Instr.dayBoundary old ∈ s.due)
    (hahead : (s.ahead (.dayBoundary old)).any isBoundaryWork = true) :
    exec (.dayBoundary old) s = .next s.sent := by
  show execDayBoundary old s = _
  rw [execDayBoundary, run_next h, State.settled_of_atRest h, afterEarlier_waits hahead, State.handOnce_mem hmem]

/-- Settles O28: the three steps of the rollover, what each makes of a record and an order, and the day boundary. -/
theorem dayBoundaryHasThreeParts : Obligations.DayBoundaryHasThreeParts := by
  refine ⟨fun s => State.rollover_eq, fun s => ?past, fun s i r h => ?retire, fun s id => ⟨State.retireOrder_none,
      fun o ho => ⟨State.retireOrder_held ho, State.retireOrder_queued ho, State.retireOrder_accepted ho,
        State.retireOrder_other ho⟩⟩,
    fun s room hroom => ⟨State.room_promote_same hroom, fun j hj => State.room_promote_other hj,
      fun i hi => State.res_promote_other hi, fun hl i hi r hr => State.res_promote_mem hl hi hr⟩,
    fun s old => ⟨fun h => exec_dayBoundary_waits h, fun h => exec_dayBoundary_runs h, State.next_rollover, ?kept⟩⟩
  case past =>
    intro u past listed lost
    have hlisted : ∀ id, id ∈ s.pastOrders ↔ listed id := fun id => State.mem_pastOrders
    have hframe : u = (s.raiseDiscarded s.lostCount).withTables s.pastFreed := State.rollPast_withTables
    have hlost : s.lostCount = lost := State.lostCount_eq
    refine ⟨fun i => ⟨fun hp => ?_, fun hp => ?_⟩, fun id => ⟨fun hid => ?_, fun hid => ?_⟩, ?_,
      ⟨s.goneOrders, s.pastOrders, fun id => ?_, hlisted, fun p => ?_⟩, State.rollPast_rooms, ?_⟩
    · exact (State.res_rollPast i).trans (State.res_freeRecords_mem State.pastSet_nodup _ (State.mem_pastSet.2 hp))
    · exact (State.res_rollPast i).trans (State.res_freeRecords_other _ fun hm => hp (State.mem_pastSet.1 hm))
    · exact (State.order_rollPast id).trans (if_pos ((hlisted id).2 hid))
    · exact (State.order_rollPast id).trans (if_neg fun hm => hid ((hlisted id).1 hm))
    · rw [← hlost]
      exact State.discards_of_withTables hframe
    · rw [State.goneOrders, List.mem_filter, hlisted, State.flies_iff]
    · have hpantry : u.pantry p = _ := State.pantry_rollPast p
      rw [hpantry, Pantry.dropOrders_eq]
      by_cases hr : ((s.pantry p).keptFrames s.goneOrders).length < (s.pantry p).replay.length ∧ (s.pantry p).link = .up
      · rw [if_pos hr]
        exact ⟨rfl, rfl, fun _ => ⟨rfl, rfl, rfl⟩, fun hno => absurd hr.symm hno, rfl⟩
      · rw [if_neg hr]
        exact ⟨rfl, rfl, fun hyes => absurd hyes.symm hr, fun _ => ⟨rfl, rfl, rfl⟩, rfl⟩
    · obtain ⟨hclock, hev, hlines⟩ := State.records_of_withTables hframe
      obtain ⟨kclock, kev, klines⟩ := State.raiseDiscarded_records (s := s) s.lostCount
      exact ⟨hclock.trans kclock, hev.trans kev, hlines.trans klines⟩
  case retire =>
    intro settled flying
    have hflying : r.orders.any s.flies = true ↔ flying := by
      rw [List.any_eq_true]
      exact exists_congr fun id => and_congr_right fun _ => State.flies_iff
    have hres : (s.settledOrders r).res i = some r := (State.res_settledOrders i).trans h
    refine ⟨fun hd hf => ?_, fun ho => ?_, fun j hj => State.res_retire_other hj, State.not_mem_today_retire h⟩
    · have hfree := State.retire_freed h hd (Bool.eq_false_iff.2 fun hc => hf (hflying.1 hc))
      refine ⟨hfree, ?_, fun id hid => ?_⟩
      · rw [hfree, State.res_freeRecord_same]
      · rw [hfree, State.order_freeRecord hres, if_pos hid]
    · have hmove := State.retire_moved h (ho.imp_right hflying.2)
      refine ⟨hmove, ?_⟩
      rw [hmove]
      exact State.res_setRes_same (State.res_index h) _
  case kept =>
    have htabled : s.rollover = s.rollPast.withTables s.rollover := State.rollover_tabled
    have hroll : s.rollover = (s.raiseDiscarded s.lostCount).withTables s.rollover := by
      rw [State.rollPast_withTables, State.withTables_withTables] at htabled
      exact htabled
    obtain ⟨hclock, hev, hlines⟩ := State.records_of_withTables hroll
    obtain ⟨-, -, -, hriser⟩ := State.discards_of_withTables hroll
    obtain ⟨kclock, kev, klines⟩ := State.raiseDiscarded_records (s := s) s.lostCount
    exact ⟨hclock.trans kclock, hev.trans kev, hlines.trans klines,
      (congrArg Riser.receive hriser).trans (State.raiseDiscarded_receive _)⟩

end Sys2Proof.Machine
end

section
/-! PROOFS. What a PANTRY_STATUS makes of frames, orders and links (R92, R99, R106 to R112). -/

namespace Sys2Proof.Machine

variable {s : State}

/-! ## Frames acknowledged (R109) -/

section

variable {f : ReplayFrame}

theorem State.acked_none (h : f.order.bind s.order = none) : s.acked f = s := by
  rw [State.acked, h]

variable {id : OrderId} {o : Order} (hf : f.order = some id) (h : s.order id = some o)
include hf h

theorem State.acked_order (hk : f.kind = .order) (hst : o.state = .sent) :
    s.acked f = s.modOrder id fun x => { x with state := if s.orderPast o then .expired else .accepted } := by
  have hbind : f.order.bind s.order = some o := by rw [hf]; exact h
  rw [State.acked, hbind, ← order_id h]
  simp only [hk, hst]

theorem State.acked_cancel (hk : f.kind = .cancel) (hst : o.state = .cancelPending) :
    s.acked f = s.modOrder id fun x => { x with state := if s.orderPast o then .expired else .cancelled } := by
  have hbind : f.order.bind s.order = some o := by rw [hf]; exact h
  rw [State.acked, hbind, ← order_id h]
  simp only [hk, hst]

theorem State.acked_other
    (ho : (f.kind = .order ∧ o.state ≠ .sent) ∨ (f.kind = .cancel ∧ o.state ≠ .cancelPending)) : s.acked f = s := by
  have hbind : f.order.bind s.order = some o := by rw [hf]; exact h
  rw [State.acked, hbind]
  rcases ho with ⟨hk, hst⟩ | ⟨hk, hst⟩
  · simp only [hk]
    cases hs : o.state with
    | sent => exact absurd hs hst
    | _ => rfl
  · simp only [hk]
    cases hs : o.state with
    | cancelPending => exact absurd hs hst
    | _ => rfl

end

theorem State.acked_frame (f : ReplayFrame) : s.acked f = { s with orders := (s.acked f).orders } := by
  unfold State.acked
  split
  · rfl
  · split <;> rfl

theorem State.ackeds_frame (l : List ReplayFrame) :
    l.foldl State.acked s = { s with orders := (l.foldl State.acked s).orders } :=
  foldl_frame (fun s t => t = { s with orders := t.orders }) (fun _ => rfl) (fun {s t u} hst htu => by rw [htu, hst])
    (fun _ f => State.acked_frame f) l s

/-! ## Sequence numbers (R92) -/

section

variable {list : List ReplayFrame} {id : OrderId}

theorem lastSeq_none (h : ∀ f ∈ list, f.order ≠ some id) : lastSeq list id = none := by
  rw [lastSeq, Option.map_eq_none_iff, List.find?_eq_none]
  exact fun f hf => by simpa using h f (List.mem_reverse.1 hf)

theorem lastSeq_last {older newer : List ReplayFrame} {f : ReplayFrame} (hf : f.order = some id)
    (h : ∀ g ∈ newer, g.order ≠ some id) : lastSeq (older ++ f :: newer) id = some f.seq := by
  have hnewer : newer.reverse.find? (fun f => decide (f.order = some id)) = none := by
    rw [List.find?_eq_none]
    exact fun g hg => by simpa using h g (List.mem_reverse.1 hg)
  rw [lastSeq, List.reverse_append, List.reverse_cons, List.append_assoc, List.find?_append, hnewer]
  simp [hf]

end

/-- An order with the sequence number that a replay list gives it. -/
def Order.refreshed (p : Nat) (list : List ReplayFrame) (o : Order) : Order :=
  if o.pantry = p then { o with seq := lastSeq list o.id } else o

theorem Order.refreshed_id (p : Nat) (list : List ReplayFrame) (o : Order) : (o.refreshed p list).id = o.id := by
  unfold Order.refreshed
  split <;> rfl

theorem State.order_refreshSeqs (p : Nat) (id : OrderId) :
    (s.refreshSeqs p).order id = (s.order id).map (Order.refreshed p (s.pantry p).replay) :=
  find?_map_id (Order.refreshed_id p _) s.orders id

theorem State.refreshSeqs_congr {t : State} {p : Nat} (ho : t.orders = s.orders)
    (hr : (t.pantry p).replay = (s.pantry p).replay) : (t.refreshSeqs p).orders = (s.refreshSeqs p).orders := by
  unfold State.refreshSeqs
  rw [ho, hr]

/-! ## The outstanding span (R108) -/

theorem Pantry.placeOf_eq_some {x : Pantry} {n : Byte} {k : Nat} :
    x.placeOf n = some k ↔ k < x.replay.length ∧ (n - x.oldest).toNat = k := by
  unfold Pantry.placeOf
  simp only [Option.ite_none_right_eq_some, Option.some.injEq]
  exact ⟨fun ⟨hlt, he⟩ => ⟨he ▸ hlt, he⟩, fun ⟨hlt, he⟩ => ⟨he.symm ▸ hlt, he⟩⟩

section

variable {p : Nat} {n : Byte} {k : Nat}

/-- The `k` oldest frames removed. -/
theorem State.pantry_ackFrames (hp : p < 8) (k : Nat) : (s.ackFrames p k).pantry p = (s.pantry p).ackFrames k := by
  show (((s.pantry p).replay.take k).foldl State.acked s |>.modPantry p fun x => x.ackFrames k).pantry p = _
  rw [State.pantry_modPantry_same hp, State.ackeds_frame]
  rfl

theorem State.ackFrames_orders {t : State} (hp : p < 8) (k : Nat)
    (ht : t.orders = (((s.pantry p).replay.take k).foldl State.acked s).orders)
    (hr : (t.pantry p).replay = (s.pantry p).replay.drop k) :
    (s.ackFrames p k).orders = (t.refreshSeqs p).orders := by
  refine State.refreshSeqs_congr ht.symm ?_
  rw [State.pantry_modPantry_same hp, State.ackeds_frame, hr]
  rfl

theorem State.ackFrames_pool (k : Nat) : (s.ackFrames p k).pool = s.pool := by
  show (((s.pantry p).replay.take k).foldl State.acked s).pool = _
  rw [State.ackeds_frame]

theorem State.takeAck_span (h : (s.pantry p).placeOf n = some k) : s.takeAck p n = s.ackFrames p (k + 1) := by
  simp only [State.takeAck, h]

theorem State.takeAck_outside (h : (s.pantry p).placeOf n = none) :
    s.takeAck p n = if n = (s.pantry p).oldest - 1 then s else s.countStale p := by
  simp only [State.takeAck, h]

theorem State.takeNack_span (h : (s.pantry p).placeOf n = some k) :
    s.takeNack p n = (if 0 < k then s.ackFrames p k else s).startReplay p 0 false := by
  simp only [State.takeNack, h]

theorem State.takeNack_outside (h : (s.pantry p).placeOf n = none) : s.takeNack p n = s.countStale p := by
  simp only [State.takeNack, h]

end

/-! ## Reports (R111, R112) -/

section

variable {p : Nat} {x : PantryReport}

/-- The state in which a report's ID has been taken for its echo. -/
def State.echoed (s : State) (p : Nat) (x : PantryReport) : State :=
  s.modPantry p fun y => { y with taken := some x.order }

/-- A report settles an order still open at its pantry. -/
def Order.opensTo (p : Nat) (o : Order) : Prop :=
  o.pantry = p ∧ (o.state = .sent ∨ o.state = .accepted ∨ o.state = .cancelPending)

theorem State.takeReportOf_other (h : ∀ o, s.order x.order = some o → ¬Order.opensTo p o) :
    s.takeReportOf p x = s.echoed p x := by
  unfold State.takeReportOf
  cases ho : s.order x.order with
  | none =>
    have ho' : (s.modPantry p fun y => { y with taken := some x.order }).order x.order = none := ho
    simp only [ho']
    rfl
  | some o =>
    have ho' : (s.modPantry p fun y => { y with taken := some x.order }).order x.order = some o := ho
    simp only [ho']
    exact if_neg (h o ho)

variable {o : Order} (h : s.order x.order = some o) (ho : Order.opensTo p o)
include h ho

theorem State.takeReportOf_ready (hr : x.refuse = none) : s.takeReportOf p x =
    ((s.echoed p x).leaveCancels o).modOrder o.id fun y => { y with state := s.readyState o } := by
  have h' : (s.modPantry p fun y => { y with taken := some x.order }).order x.order = some o := h
  unfold State.takeReportOf
  simp only [h', hr]
  exact if_pos ho

theorem State.takeReportOf_refused {why : Byte} (hr : x.refuse = some why) : s.takeReportOf p x =
    (((s.echoed p x).leaveCancels o).modOrder o.id fun y =>
      { y with state := .refused, refuseReason := some why }).hand (.orderOutcomeNotice o.res o.id) := by
  have h' : (s.modPantry p fun y => { y with taken := some x.order }).order x.order = some o := h
  unfold State.takeReportOf
  simp only [h', hr]
  exact if_pos ho

end

theorem State.order_leaveCancels (o : Order) (id : OrderId) : (s.leaveCancels o).order id =
    if id = o.id then (s.order id).map fun y => { y with cancelPending := false } else s.order id :=
  State.order_modOrder (s := s.modPantry o.pantry _) o.id id _ fun _ => rfl

theorem State.pantry_leaveCancels {o : Order} (hp : o.pantry < 8) : (s.leaveCancels o).pantry o.pantry =
    { s.pantry o.pantry with cancels := (s.pantry o.pantry).cancels.filter fun i => decide (i ≠ o.id) } :=
  State.pantry_modPantry_same (s := s) hp _

/-- What a READY report makes of an order (R111). -/
theorem State.readyState_eq (o : Order) : s.readyState o = match s.res o.res with
    | some r => if r.day = .past then .expired
                else if r.state = .released ∨ r.state = .cancelled then .wasted else .delivered
    | none => .expired := by
  unfold State.readyState
  cases s.res o.res with
  | none => rfl
  | some r => cases hst : r.state <;> simp [hst]

end Sys2Proof.Machine
end

section
/-! PROOFS. A PANTRY_STATUS by the state of its link (R99, R106 to R112). -/

namespace Sys2Proof.Machine

variable {s : State} {p : Nat} {status : PantryStatus}

/-! ## A status by the link's state (R106) -/

theorem exec_pantryStatus_taken (h : s.atRest) {drop : DropCode} (hs : s.servedPantry drop = some p)
    (hm : (s.drop drop).mode = .normal) : exec (.pantryStatus drop status) s =
      .next ((s.takeDue (.pantryStatus drop status)).takeStatus p status).sent := by
  show execPantryStatus drop status s = _
  rw [execPantryStatus, run_next h, show (s.takeDue (.pantryStatus drop status)).servedPantry drop = some p from hs]
  exact congrArg (fun u : State => Host.Outcome.next u.sent) (if_pos hm)

theorem exec_pantryStatus_discarded (h : s.atRest) {drop : DropCode}
    (hno : s.servedPantry drop = none ∨ (s.drop drop).mode ≠ .normal) :
    exec (.pantryStatus drop status) s = .next (s.takeDue (.pantryStatus drop status)).sent := by
  show execPantryStatus drop status s = _
  rw [execPantryStatus, run_next h]
  cases hs : s.servedPantry drop with
  | none => rw [show (s.takeDue (.pantryStatus drop status)).servedPantry drop = none from hs]
  | some q =>
    have hm : (s.drop drop).mode ≠ .normal := hno.resolve_left (by rw [hs]; exact Option.some_ne_none q)
    rw [show (s.takeDue (.pantryStatus drop status)).servedPantry drop = some q from hs]
    exact congrArg (fun u : State => Host.Outcome.next u.sent) (if_neg hm)

theorem State.takeStatus_down (hl : (s.pantry p).link = .down) : s.takeStatus p status = s := by
  simp only [State.takeStatus, hl]

/-- The resynchronisation of a link, before the report. -/
def State.resynced (s : State) (p : Nat) (limit : Byte) : State :=
  ((s.modPantry p fun y => y.resync limit).refreshSeqs p).raise (64 + p) .synced

theorem State.takeStatus_syncing (hl : (s.pantry p).link = .syncing) : s.takeStatus p status =
    if status.resyncAck then (s.resynced p status.limit).takeReportOpt p status.report else s := by
  simp only [State.takeStatus, hl]
  rfl

theorem State.takeStatus_faulted (hl : (s.pantry p).link = .faulted) :
    s.takeStatus p status = (s.takeLimit p status.limit).takeReportOpt p status.report := by
  simp only [State.takeStatus, hl]

section

variable (hl : (s.pantry p).link = .up)
include hl

theorem State.takeStatus_up_none (hs : status.seq = none) :
    s.takeStatus p status = (s.takeLimit p status.limit).takeReportOpt p status.report := by
  simp only [State.takeStatus, hl, hs]

theorem State.takeStatus_up_some {n : Byte} (hs : status.seq = some n) : s.takeStatus p status =
    (if status.nack then (s.takeLimit p status.limit).takeNack p n
      else (s.takeLimit p status.limit).takeAck p n).takeReportOpt p status.report := by
  simp only [State.takeStatus, hl, hs]

end

/-! ## The resynchronisation (R99) -/

section

theorem renumber_length (frames : List ReplayFrame) : (renumber frames).length = frames.length := by
  simp [renumber]

theorem renumber_getElem {frames : List ReplayFrame} {i : Nat} {f : ReplayFrame} (h : frames[i]? = some f) :
    (renumber frames)[i]? = some { f with seq := BitVec.ofNat 8 i } := by
  simp [renumber, h]

theorem renumber_eq_nil {frames : List ReplayFrame} : renumber frames = [] ↔ frames = [] := by
  rw [← List.length_eq_zero_iff, renumber_length, List.length_eq_zero_iff]

/-- Renumbering keeps the frames' kinds. -/
theorem renumber_orders (frames : List ReplayFrame) :
    ((renumber frames).filter fun f => f.kind = .order).length = (frames.filter fun f => f.kind = .order).length := by
  have hkinds : (renumber frames).map ReplayFrame.kind = frames.map ReplayFrame.kind := by
    refine List.ext_getElem? fun i => ?_
    rw [List.getElem?_map, List.getElem?_map]
    cases hf : frames[i]? with
    | none =>
      have hnone : (renumber frames)[i]? = none := by
        rw [List.getElem?_eq_none_iff, renumber_length]
        exact List.getElem?_eq_none_iff.1 hf
      rw [hnone]
    | some f => rw [renumber_getElem hf]; rfl
  have hcount : ∀ l : List ReplayFrame, (l.filter fun f => f.kind = .order).length =
      ((l.map ReplayFrame.kind).filter fun k => decide (k = .order)).length := by
    intro l
    rw [List.filter_map, List.length_map]; rfl
  rw [hcount, hcount, hkinds]

variable {limit : Byte} (hp : p < 8)
include hp

theorem State.pantry_resynced : (s.resynced p limit).pantry p = (s.pantry p).resync limit := by
  rw [State.resynced, State.pantry_raise]
  exact State.pantry_modPantry_same hp _

theorem State.orders_resynced : (s.resynced p limit).orders =
    ({ s with pantries := (s.resynced p limit).pantries }.refreshSeqs p).orders := by
  have horders : (s.resynced p limit).orders = ((s.modPantry p fun y => y.resync limit).refreshSeqs p).orders := by
    rw [State.resynced, State.raise_orders]
  rw [horders]
  refine State.refreshSeqs_congr rfl ?_
  show _ = ((s.resynced p limit).pantry p).replay
  rw [State.pantry_resynced hp, State.pantry_modPantry_same hp]

end

/-! ## A NACK within the span (R110) -/

section

variable {n : Byte} {k : Nat} (hp : p < 8)
include hp

omit hp in
theorem Pantry.drop_ne_nil {x : Pantry} (h : k < x.replay.length) : x.replay.drop k ≠ [] := by
  rw [ne_eq, List.drop_eq_nil_iff]
  exact Nat.not_le.2 h

omit hp in
theorem State.startReplay_replay {t : State} (hp : p < 8) (pos : Nat) (h : (t.pantry p).replayCount < 3) :
    ((t.startReplay p pos false).pantry p).replay = (t.pantry p).replay ∧
    ((t.startReplay p pos false).pantry p).replayCount = (t.pantry p).replayCount + 1 ∧
    ((t.startReplay p pos false).pantry p).replayPos = (if (t.pantry p).replay = [] then none else some pos) ∧
    (t.startReplay p pos false).orders = t.orders := by
  rw [State.startReplay_again hp pos false h]
  refine ⟨?_, ?_, ?_, rfl⟩ <;> rw [State.pantry_modPantry_same hp]

/-- The frames before a NACK's are acknowledged, and the replay starts at its own. -/
theorem State.takeNack_later (h : (s.pantry p).placeOf n = some k) (hk : 0 < k) :
    ((s.takeNack p n).pantry p).replay = (s.pantry p).replay.drop k ∧ ((s.takeNack p n).pantry p).replayCount = 1 ∧
      ((s.takeNack p n).pantry p).replayPos = some 0 ∧
      (s.takeNack p n).orders = ({ ((s.pantry p).replay.take k).foldl State.acked s with
        pantries := (s.takeNack p n).pantries }.refreshSeqs p).orders := by
  have hlt := (Pantry.placeOf_eq_some.1 h).1
  have hnack : s.takeNack p n = (s.ackFrames p k).startReplay p 0 false := by
    rw [State.takeNack_span h, if_pos hk]
  have hack := State.pantry_ackFrames (s := s) hp k
  have hcount : ((s.ackFrames p k).pantry p).replayCount < 3 := by rw [hack]; exact Nat.zero_lt_succ 2
  obtain ⟨hreplay, hcnt, hpos, horders⟩ := State.startReplay_replay hp 0 hcount
  rw [← hnack] at hreplay hcnt hpos horders
  rw [hack] at hreplay hcnt hpos
  refine ⟨hreplay, hcnt, hpos.trans (if_neg (Pantry.drop_ne_nil hlt)), horders.trans ?_⟩
  exact State.ackFrames_orders hp k rfl hreplay

/-- The fourth replay without progress faults the link. -/
theorem State.startReplay_fault (h : 3 ≤ (s.pantry p).replayCount) {u : State} (hu : u = s.startReplay p 0 false) :
    u.pantry p = { s.pantry p with
      replayCount := 4, link := .faulted, dispatch := [], cancels := [], replay := [], replayPos := none
      replayTimer := none } ∧
    (∀ q, q ≠ p → u.pantry q = s.pantry q) ∧
    (∀ id o, s.order id = some o → Order.failsAt p o = true →
      u.order id = some { o with state := .failed, cancelPending := false, seq := none } ∧
        Instr.orderOutcomeNotice o.res id ∈ u.due) ∧
    (u.latch (64 + p)).isSet = true ∧ u.pool = s.pool := by
  obtain ⟨t, ht⟩ : ∃ t, t = (s.modPantry p fun x => { x with replayCount := min 4 (x.replayCount + 1) }).modPantry p
    fun x => x.leaveUp .faulted := ⟨_, rfl⟩
  have horder : ∀ id, t.order id = s.order id := by rw [ht]; exact fun _ => rfl
  have hpantry : t.pantry p = { s.pantry p with
      replayCount := 4, link := .faulted, replayPos := none, replayTimer := none } := by
    rw [ht, State.pantry_modPantry_same hp, State.pantry_modPantry_same hp, Nat.min_eq_left (by omega)]
    rfl
  have hother : ∀ q, q ≠ p → t.pantry q = s.pantry q := by
    intro q hq
    rw [ht, State.pantry_modPantry_other hq, State.pantry_modPantry_other hq]
  have hfault : u = (t.failLink p).raise (64 + p) .pantryFault := by
    rw [hu, State.startReplay_faults hp 0 false h, ht]; rfl
  subst hfault
  refine ⟨?_, fun q hq => ?_, fun id o ho hf => ?_, State.latch_raise_isSet (by omega) _, ?_⟩
  · rw [State.pantry_raise, State.pantry_failLink_same hp, hpantry]
  · rw [State.pantry_raise, State.pantry_failLink_other hq, hother q hq]
  · rw [State.order_raise, State.raise_due]
    exact State.failLink_fails ((horder id).trans ho) hf
  · rw [State.raise_pool, State.failLink_eq, ht]
    rfl

end

/-! ## Reports -/

section

variable {x : PantryReport}

theorem State.pantry_echoed (hp : p < 8) : (s.echoed p x).pantry p = { s.pantry p with taken := some x.order } :=
  State.pantry_modPantry_same hp _

variable {o : Order} (h : s.order x.order = some o) (ho : Order.opensTo p o) (hp : p < 8)
include h ho hp

/-- What a report of an open order leaves of the pantry. -/
theorem State.pantry_takeReportOf : (s.takeReportOf p x).pantry p = { s.pantry p with
    taken := some x.order, cancels := (s.pantry p).cancels.filter fun i => decide (i ≠ x.order) } := by
  have hid : o.id = x.order := State.order_id h
  have hleave : ((s.echoed p x).leaveCancels o).pantry p = { s.pantry p with
      taken := some x.order, cancels := (s.pantry p).cancels.filter fun i => decide (i ≠ x.order) } := by
    have hpan := ho.1
    subst hpan
    rw [State.pantry_leaveCancels hp, State.pantry_echoed hp, hid]
  cases hr : x.refuse with
  | none => rw [State.takeReportOf_ready h ho hr]; exact hleave
  | some why => rw [State.takeReportOf_refused h ho hr]; exact hleave

omit ho hp in
theorem State.order_left : ((s.echoed p x).leaveCancels o).order x.order = some { o with cancelPending := false } := by
  rw [State.order_leaveCancels, if_pos (State.order_id h).symm, show (s.echoed p x).order x.order = some o from h,
    Option.map_some]

omit hp in
theorem State.order_takeReportOf_ready (hr : x.refuse = none) : (s.takeReportOf p x).order x.order =
    some { o with cancelPending := false, state := s.readyState o } := by
  rw [State.takeReportOf_ready h ho hr, State.order_setState, if_pos (State.order_id h).symm, State.order_left h]
  rfl

omit hp in
theorem State.order_takeReportOf_refused {why : Byte} (hr : x.refuse = some why) :
    (s.takeReportOf p x).order x.order =
      some { o with cancelPending := false, state := .refused, refuseReason := some why } ∧
    Instr.orderOutcomeNotice o.res x.order ∈ (s.takeReportOf p x).due := by
  have hid := State.order_id h
  rw [State.takeReportOf_refused h ho hr]
  refine ⟨?_, List.mem_append_right _ (List.mem_singleton.2 (by rw [hid]))⟩
  refine (State.order_modOrder (s := (s.echoed p x).leaveCancels o) o.id x.order
    (fun y => { y with state := .refused, refuseReason := some why }) fun _ => rfl).trans ?_
  rw [if_pos hid.symm, State.order_left h]
  rfl

end

theorem State.taken_takeReportOf {x : PantryReport} (hp : p < 8) :
    ((s.takeReportOf p x).pantry p).taken = some x.order := by
  by_cases hopen : ∃ o, s.order x.order = some o ∧ Order.opensTo p o
  · obtain ⟨o, h, ho⟩ := hopen
    rw [State.pantry_takeReportOf h ho hp]
  · rw [State.takeReportOf_other fun o h ho => hopen ⟨o, h, ho⟩, State.pantry_echoed hp]

/-- Settles O51: frames, sequence numbers, and the status by its link, its ACK or NACK and its report. -/
theorem pantryStatusIsTakenByLinkState : Obligations.PantryStatusIsTakenByLinkState := by
  refine ⟨fun s f => ⟨fun id hf ho => State.acked_none (by rw [hf]; exact ho),
      fun hf => State.acked_none (by rw [hf]; rfl), fun id o hf ho => ?acked⟩,
    fun s p id => ⟨fun h => ?noOrder, fun o h => ?seq⟩, fun s drop status => ⟨fun h => exec_pantryStatus_discarded h, fun p hs => ?_⟩⟩
  case acked =>
    intro past becomes
    have hpast : s.orderPast o = true ↔ past := decide_eq_true_iff
    refine ⟨fun hk hst => ⟨fun hp => ?_, fun hp => ?_⟩, fun hk hst => ⟨fun hp => ?_, fun hp => ?_⟩,
      State.acked_other hf ho⟩
    · rw [State.acked_order hf ho hk hst, if_pos (hpast.2 hp)]
    · rw [State.acked_order hf ho hk hst, if_neg (mt hpast.1 hp)]
    · rw [State.acked_cancel hf ho hk hst, if_pos (hpast.2 hp)]
    · rw [State.acked_cancel hf ho hk hst, if_neg (mt hpast.1 hp)]
  case noOrder => rw [State.order_refreshSeqs, h]; rfl
  case seq =>
    rw [State.order_refreshSeqs, h, Option.map_some]
    by_cases hp : o.pantry = p
    · refine ⟨lastSeq (s.pantry p).replay id, ?_, fun hne => absurd hp hne, fun _ => ⟨lastSeq_none,
        fun older f newer hlist hf hnewer => ?_⟩⟩
      · rw [Order.refreshed, if_pos hp, State.order_id h]
      · rw [hlist]; exact lastSeq_last hf hnewer
    · exact ⟨o.seq, by rw [Order.refreshed, if_neg hp], fun _ => rfl, fun hyes => absurd hyes hp⟩
  intro x limited
  have hp : p < 8 := State.servedPantry_lt hs
  have hlimit : s.takeLimit p status.limit = limited := State.modPantry_congr rfl
  refine ⟨fun h hm => exec_pantryStatus_taken h hs hm, State.takeStatus_down,
    fun hl ha => (State.takeStatus_syncing hl).trans (if_neg (Bool.eq_false_iff.1 ha)), fun hl ha => ?ack,
    ⟨rfl, fun _ => rfl⟩, fun hl ha hr => ?resync,
    fun hl => (State.takeStatus_faulted hl).trans (by rw [hlimit]),
    fun hl hseq => (State.takeStatus_up_none hl hseq).trans (by rw [hlimit]),
    fun n hl hseq hn => (State.takeStatus_up_some hl hseq).trans (by rw [hn, hlimit]; rfl),
    fun n hl hseq hn => (State.takeStatus_up_some hl hseq).trans (by rw [hn, hlimit]; rfl),
    fun n k => Pantry.placeOf_eq_some, fun n k hk => ?span, fun n hk => ?outside, fun n hk hc => ?again,
    fun n k hk h0 => State.takeNack_later hp hk h0, fun n hk hc => ?fault, fun report => State.taken_takeReportOf hp,
    fun report o ho hpan hst => ?report, fun report hno => ?noReport⟩
  case ack =>
    rw [State.takeStatus_syncing hl, State.takeStatus_syncing hl, if_pos ha, if_pos ha]
    rfl
  case resync =>
    have hu : s.takeStatus p status = s.resynced p status.limit := by
      rw [State.takeStatus_syncing hl, if_pos ha, hr]; rfl
    intro u orders
    have hu' : u = s.resynced p status.limit := hu
    have hpantry : u.pantry p = (s.pantry p).resync status.limit := by rw [hu']; exact State.pantry_resynced hp
    have horders : ((renumber (s.pantry p).replay).filter fun f => f.kind = .order).length = orders.length :=
      renumber_orders _
    rw [hpantry]
    refine ⟨rfl, rfl, rfl, rfl, ?_, ?_, renumber_length _, fun i f hf => renumber_getElem hf, fun hnil => ⟨?_, ?_⟩,
      fun hne => ⟨?_, ?_⟩, rfl, rfl, ?_, ?_, ?_, ?_⟩
    · rw [Pantry.resync, renumber_length]
    · rw [Pantry.resync, horders]
    · exact if_pos (renumber_eq_nil.2 hnil)
    · exact if_pos (renumber_eq_nil.2 hnil)
    · exact if_neg (mt renumber_eq_nil.1 hne)
    · exact if_neg (mt renumber_eq_nil.1 hne)
    · rw [Pantry.resync, horders]
      rfl
    · rw [hu']; exact State.orders_resynced hp
    · rw [hu']; exact State.latch_raise_isSet (by omega) _
    · rw [hu', State.resynced, State.raise_pool]; rfl
  case span =>
    intro rest
    rw [State.takeAck_span hk]
    exact ⟨State.pantry_ackFrames hp (k + 1), State.ackFrames_orders hp (k + 1) rfl
      (congrArg Pantry.replay (State.pantry_ackFrames hp (k + 1))), State.ackFrames_pool (k + 1)⟩
  case outside =>
    exact ⟨fun heq => (State.takeAck_outside hk).trans (if_pos heq),
      fun hne => (State.takeAck_outside hk).trans (if_neg hne), State.takeNack_outside hk⟩
  case again =>
    have hne : (s.pantry p).replay ≠ [] := List.ne_nil_of_length_pos (Pantry.placeOf_eq_some.1 hk).1
    rw [State.takeNack_span hk, if_neg (Nat.lt_irrefl 0), State.startReplay_again hp 0 false hc]
    refine State.modPantry_congr ?_
    show { s.pantry p with
      replayCount := (s.pantry p).replayCount + 1, replayPos := if (s.pantry p).replay = [] then none else some 0 } = _
    rw [if_neg hne]
  case fault =>
    have hu : s.takeNack p n = s.startReplay p 0 false := by
      rw [State.takeNack_span hk, if_neg (Nat.lt_irrefl 0)]
    obtain ⟨hpantry, hother, hfails, hlatch, hpool⟩ := State.startReplay_fault hp hc hu
    intro u
    have hpantry' : u.pantry p = _ := hpantry
    rw [hpantry']
    exact ⟨rfl, rfl, rfl, rfl, rfl, rfl, rfl, rfl, hother,
      fun id o ho hpan hst => hfails id o ho (Order.failsAt_iff.2 ⟨hpan, hst⟩), hlatch, hpool⟩
  case report =>
    have hopen : Order.opensTo p o := ⟨hpan, hst⟩
    refine ⟨fun hr => ?_, fun why hr => State.order_takeReportOf_refused ho hopen hr, ?_⟩
    · exact (State.order_takeReportOf_ready ho hopen hr).trans (by rw [State.readyState_eq] <;> rfl)
    · rw [State.pantry_takeReportOf ho hopen hp]
  case noReport =>
    refine State.takeReportOf_other fun o ho hopen => ?_
    rcases hno o ho with hne | ⟨h1, h2, h3⟩
    · exact hne hopen.1
    · exact hopen.2.elim h1 fun h => h.elim h2 h3

end Sys2Proof.Machine
end

section
/-! PROOFS. The display of a panel's room (R160, R161) and the frame of a turn at a drop's own phase (R101 to R105, R113,
R155 to R157). -/

namespace Sys2Proof.Machine

variable {s : State}

/-! ## The rows of R161 -/

section

variable {room now : Nat}

/-- A slot in the tail of an ENDED record, as the display tests for it. -/
theorem State.inTurnaround_iff : s.inTurnaround room now = true ↔ ∃ i r, i ∈ (s.room room).today ∧ s.res i = some r ∧
    r.state = .ended ∧ r.stop ≤ now ∧ now < min (r.stop + r.tail) 288 := by
  rw [State.inTurnaround, List.any_eq_true]
  refine exists_congr fun i => ?_
  cases hr : s.res i with
  | none => simp
  | some r => simp [Reservation.effEnd, and_assoc]

variable (hopen : (s.room room).service = .opened) (hnow : s.curSlot = some now)
include hopen hnow

theorem State.face_inUse {i : Nat} {r : Reservation} (hcur : s.current room = some (i, r)) (h : r.state = .inUse) :
    s.face (some room) = (.inUse, .red, false) := by
  simp only [State.face, hopen, hnow, hcur, if_pos h]

theorem State.face_due {i : Nat} {r : Reservation} (hcur : s.current room = some (i, r)) (h : r.state = .due) :
    s.face (some room) = if now + 1 < r.start + (s.classOf room).grace then (.due, .amber, false)
      else (.dueLast, .amber, true) := by
  have hne : r.state ≠ .inUse := by rw [h]; decide
  have hslot : now < r.start + (s.classOf room).grace - 1 ↔ now + 1 < r.start + (s.classOf room).grace := by omega
  simp only [State.face, hopen, hnow, hcur, if_neg hne, hslot]

variable (hcur : s.current room = none)
include hcur

theorem State.face_turnaround (h : s.inTurnaround room now = true) : s.face (some room) = (.turnaround, .off, false) := by
  simp only [State.face, hopen, hnow, hcur, if_pos h]

theorem State.face_free (h : ¬s.inTurnaround room now = true) (hnext : s.nextBooked room = none) :
    s.face (some room) = (.free, .green, false) := by
  simp only [State.face, hopen, hnow, hcur, if_neg h, hnext]

theorem State.face_next (h : ¬s.inTurnaround room now = true) {r : Reservation} (hnext : s.nextBooked room = some r) :
    s.face (some room) = if r.start ≤ now + 3 then (.freeSoon, .green, true) else (.free, .green, false) := by
  simp only [State.face, hopen, hnow, hcur, if_neg h, hnext]

end

theorem State.face_shut {room : Nat} :
    ((s.room room).service = .closing → s.face (some room) = (.closing, .red, true)) ∧
    ((s.room room).service = .closed → s.face (some room) = (.closed, .red, true)) :=
  ⟨fun h => by simp only [State.face, h], fun h => by simp only [State.face, h]⟩

theorem State.face_noTime {room : Nat} (hopen : (s.room room).service = .opened) (h : s.curSlot = none) :
    s.face (some room) = (.noTime, .off, false) := by simp only [State.face, hopen, h]

theorem State.shown_current {room : Nat} {x : Nat × Reservation} (h : s.current room = some x) :
    s.shown room = some x.2 := by simp only [State.shown, h]

theorem State.shown_next {room : Nat} (h : s.current room = none) : s.shown room = s.nextBooked room := by
  simp only [State.shown, h]

/-! ## The frame of a panel or a sensor (R156, R157) -/

section

variable {c : DropCode}

theorem State.dropFrame_panel (h : (s.drop c).kind = .roomPanel) : s.dropFrame c = s.panelFrame c := by
  simp only [State.dropFrame, h]

theorem State.panelFrame_answer {a : Answer} (h : (s.drop c).answer = some a) : s.panelFrame c =
    (s.modDrop c fun d => { d with answer := none, inFlight := .answer }, .answer a) := by
  simp only [State.panelFrame, h]

variable (h : (s.drop c).answer = none)
include h

theorem State.panelFrame_show (hs : (s.drop c).stale = true) (hq : (s.drop c).fifo = [] ∨ (s.drop c).showLast = false) :
    s.panelFrame c = s.handShow c := by
  cases hf : (s.drop c).fifo with
  | nil => simp only [State.panelFrame, h, hs, hf]
  | cons item rest =>
    have hlast : (s.drop c).showLast = false := hq.resolve_left (by rw [hf]; exact List.cons_ne_nil _ _)
    simp only [State.panelFrame, h, hs, hf, hlast, Bool.false_eq_true, if_false]

theorem State.panelFrame_item (hs : (s.drop c).stale = false ∨ (s.drop c).showLast = true) {item : Item}
    {rest : List Item} (hf : (s.drop c).fifo = item :: rest) : s.panelFrame c = s.handItem c item := by
  cases hst : (s.drop c).stale with
  | false => simp only [State.panelFrame, h, hst, hf]
  | true =>
    have hlast : (s.drop c).showLast = true := hs.resolve_left (by rw [hst]; decide)
    simp only [State.panelFrame, h, hst, hf, hlast, if_true]

theorem State.panelFrame_idle (hs : (s.drop c).stale = false) (hf : (s.drop c).fifo = []) :
    s.panelFrame c = s.handPoll c (.poll none) := by
  simp only [State.panelFrame, h, hs, hf]

end

section

variable {c : DropCode} {rest : List Item}

theorem State.handItem_content {code : Byte} {text : Bytes} (hf : (s.drop c).fifo = .content code text :: rest) :
    s.handItem c (.content code text) =
      (s.modDrop c fun d => { d with fifo := rest, showLast := false, inFlight := .content },
        .content (BitVec.ofNat 8 (s.face (s.drop c).room).1.code) text) :=
  congrArg (fun u : State => (u, DownFrame.content (BitVec.ofNat 8 (s.face (s.drop c).room).1.code) text))
    (State.modDrop_congr (by rw [hf]; rfl))

theorem State.handItem_service {body : Bytes} (hf : (s.drop c).fifo = .service body :: rest) :
    s.handItem c (.service body) =
      (s.modDrop c fun d => { d with fifo := rest, showLast := false, inFlight := .service }, .service body) :=
  congrArg (fun u : State => (u, DownFrame.service body)) (State.modDrop_congr (by rw [hf]; rfl))

theorem State.dropFrame_sensor_item (hk : (s.drop c).kind = .roomSensor) {item : Item}
    (hf : (s.drop c).fifo = item :: rest) : s.dropFrame c = s.handItem c item := by
  simp only [State.dropFrame, hk, hf]

theorem State.dropFrame_sensor_idle (hk : (s.drop c).kind = .roomSensor) (hf : (s.drop c).fifo = []) :
    s.dropFrame c = s.handPoll c (.poll none) := by
  simp only [State.dropFrame, hk, hf]

end

/-! ## The frame of a pantry (R101) -/

/-- Only a drop configured PANTRY serves one. -/
theorem State.servedPantry_kind {c : DropCode} {p : Nat} (h : s.servedPantry c = some p) : (s.drop c).kind = .pantry := by
  unfold State.servedPantry at h
  split at h
  next hk _ => exact hk
  next => cases h

theorem State.dropFrame_pantry {c : DropCode} {p : Nat} (h : s.servedPantry c = some p) :
    s.dropFrame c = s.pantryFrame p := by
  simp only [State.dropFrame, State.servedPantry_kind h, h]

/-- A replay is in progress exactly when its position names a frame. -/
theorem Pantry.replaying_none {x : Pantry} (h : ¬∃ i, x.replayPos = some i ∧ i < x.replay.length) :
    x.replaying = none := by
  rw [Pantry.replaying]
  cases hp : x.replayPos with
  | none => rfl
  | some i =>
    have hi : x.replay[i]? = none := List.getElem?_eq_none_iff.2 (Nat.not_lt.1 fun hi => h ⟨i, hp, hi⟩)
    rw [Option.bind_some, hi, Option.map_none]

theorem Pantry.replaying_some {x : Pantry} {i : Nat} {f : ReplayFrame} (hp : x.replayPos = some i)
    (hf : x.replay[i]? = some f) : x.replaying = some (i, f) := by
  rw [Pantry.replaying, hp, Option.bind_some, hf, Option.map_some]

theorem Pantry.credit_eq_zero {x : Pantry} : ¬0 < x.credit ↔ (x.limit - x.consumed).toNat = 0 ∨
    128 ≤ (x.limit - x.consumed).toNat := by
  rw [Pantry.credit]
  split <;> omega

section

variable {p : Nat}

theorem State.pantryFrame_syncing (h : (s.pantry p).link = .syncing) :
    s.pantryFrame p = (s, .resync (s.pantry p).taken) := by
  simp only [State.pantryFrame, h]

theorem State.pantryFrame_idleLink (h : (s.pantry p).link = .down ∨ (s.pantry p).link = .faulted) :
    s.pantryFrame p = (s, .poll (some (s.pantry p).taken)) := by
  rcases h with h | h <;> simp only [State.pantryFrame, h]

variable (h : (s.pantry p).link = .up)
include h

theorem State.pantryFrame_resend {i : Nat} {f : ReplayFrame} (hr : (s.pantry p).replaying = some (i, f)) :
    s.pantryFrame p = s.resend p i f := by
  simp only [State.pantryFrame, h, hr]

variable (hr : (s.pantry p).replaying = none)
include hr

theorem State.pantryFrame_full (hl : 32 ≤ (s.pantry p).replay.length) :
    s.pantryFrame p = (s, .poll (some (s.pantry p).taken)) := by
  simp only [State.pantryFrame, h, hr, if_neg (Nat.not_lt.2 hl)]

variable (hl : (s.pantry p).replay.length < 32)
include hl

theorem State.pantryFrame_cancel {id : OrderId} {rest : List OrderId} (hc : (s.pantry p).cancels = id :: rest) :
    s.pantryFrame p = s.sendCancel p id := by
  simp only [State.pantryFrame, h, hr, if_pos hl, hc]

variable (hc : (s.pantry p).cancels = [])
include hc

theorem State.pantryFrame_order {o : Order} (ho : s.headOrder p = some o) (ha : 0 < (s.pantry p).credit) :
    s.pantryFrame p = s.sendOrder p o := by
  simp only [State.pantryFrame, h, hr, if_pos hl, hc, ho, if_pos ha]

theorem State.pantryFrame_idle (hno : (s.pantry p).dispatch = [] ∨ ¬0 < (s.pantry p).credit) :
    s.pantryFrame p = (s, .poll (some (s.pantry p).taken)) := by
  cases ho : s.headOrder p with
  | none => simp only [State.pantryFrame, h, hr, if_pos hl, hc, ho]
  | some o =>
    have ha : ¬0 < (s.pantry p).credit := hno.resolve_left fun hd => by
      rw [State.headOrder, hd] at ho
      cases ho
    simp only [State.pantryFrame, h, hr, if_pos hl, hc, ho, if_neg ha]

end

/-! ### What each frame changes -/

section

variable {p : Nat}

theorem State.resend_eq {i : Nat} {f : ReplayFrame} {o : Order} (ho : f.order.bind s.order = some o) : s.resend p i f =
    (s.modPantry p fun y => { y with
      replayPos := if i + 1 < (s.pantry p).replay.length then some (i + 1) else none },
      if f.kind = .order then .order (s.pantry p).taken f.seq (s.orderFields o)
      else .cancel (s.pantry p).taken o.id f.seq) := by
  have hstate : (s.modPantry p fun x => { x with replayPos := if i + 1 < x.replay.length then some (i + 1) else none }) =
      s.modPantry p fun y => { y with
        replayPos := if i + 1 < (s.pantry p).replay.length then some (i + 1) else none } :=
    State.modPantry_congr rfl
  rw [State.resend, ho, ← hstate]
  cases f.kind <;> rfl

/-- A frame joins the replay list with the pantry's next sequence, and starts the timer of an empty list. -/
def Pantry.joined (x : Pantry) (kind : FrameKind) (id : OrderId) : List ReplayFrame :=
  x.replay ++ [{ kind := kind, seq := x.nextSeq, order := some id }]

theorem State.sendCancel_eq {id : OrderId} {rest : List OrderId} (hc : (s.pantry p).cancels = id :: rest) :
    s.sendCancel p id = ((s.modPantry p fun y => { y with
        cancels := rest, replay := (s.pantry p).joined .cancel id, nextSeq := (s.pantry p).nextSeq + 1
        replayTimer := if (s.pantry p).replay = [] then some (.start (s.pantry p).timeoutCode)
          else (s.pantry p).replayTimer }).modOrder id
      fun o => { o with cancelPending := false, seq := some (s.pantry p).nextSeq },
      .cancel (s.pantry p).taken id (s.pantry p).nextSeq) := by
  have hstate : (s.modPantry p fun x => { x.append .cancel id with cancels := x.cancels.tail }) =
      s.modPantry p fun y => { y with
        cancels := rest, replay := (s.pantry p).joined .cancel id, nextSeq := (s.pantry p).nextSeq + 1
        replayTimer := if (s.pantry p).replay = [] then some (.start (s.pantry p).timeoutCode)
          else (s.pantry p).replayTimer } :=
    State.modPantry_congr (by rw [hc]; rfl)
  rw [State.sendCancel, hstate]

theorem State.sendOrder_eq {o : Order} {id : OrderId} {rest : List OrderId} (hid : o.id = id)
    (hd : (s.pantry p).dispatch = id :: rest) :
    s.sendOrder p o = ((s.modPantry p fun y => { y with
        dispatch := rest, replay := (s.pantry p).joined .order id, nextSeq := (s.pantry p).nextSeq + 1
        consumed := (s.pantry p).consumed + 1
        replayTimer := if (s.pantry p).replay = [] then some (.start (s.pantry p).timeoutCode)
          else (s.pantry p).replayTimer }).modOrder id
      fun o => { o with state := .sent, seq := some (s.pantry p).nextSeq },
      .order (s.pantry p).taken (s.pantry p).nextSeq (s.orderFields o)) := by
  have hstate : (s.modPantry p fun x => { x.append .order id with dispatch := x.dispatch.tail, consumed := x.consumed + 1 }) =
      s.modPantry p fun y => { y with
        dispatch := rest, replay := (s.pantry p).joined .order id, nextSeq := (s.pantry p).nextSeq + 1
        consumed := (s.pantry p).consumed + 1
        replayTimer := if (s.pantry p).replay = [] then some (.start (s.pantry p).timeoutCode)
          else (s.pantry p).replayTimer } :=
    State.modPantry_congr (by rw [hd]; rfl)
  rw [State.sendOrder, hid, hstate]

end

/-- Settles O52: the display by its rows, and the frame by the drop's kind, its queue and its pantry's link. -/
theorem frameOfTurnIsNamed : Obligations.FrameOfTurnIsNamed := by
  refine ⟨fun s room => ?display, fun s c hv => ?frame⟩
  case display =>
    intro isBooked next shown turning
    have hnext : next = s.nextBooked room := rfl
    have hturn : ∀ now, s.inTurnaround room now = true ↔ turning now := fun _ => State.inTurnaround_iff
    have hshown : shown = s.shown room := by
      cases hc : s.current room with
      | none => rw [State.shown_next hc, ← hnext]; simp only [shown, hc]
      | some x => rw [State.shown_current hc]; simp only [shown, hc]
    refine ⟨rfl, State.face_shut.1, State.face_shut.2,
      fun ho hu => State.face_noTime ho (by rw [State.curSlot, hu]; rfl), fun now ho hn => ⟨fun i r hc => ⟨?_, ?_, ?_⟩,
        fun hc ht => State.face_turnaround ho hn hc ((hturn now).2 ht), fun hc ht => ?_⟩, ?_, rfl⟩
    · exact State.face_inUse ho hn hc
    · exact fun hd hlt => (State.face_due ho hn hc hd).trans (if_pos hlt)
    · exact fun hd hle => (State.face_due ho hn hc hd).trans (if_neg (Nat.not_lt.2 hle))
    · have hno := mt (hturn now).1 ht
      exact ⟨fun r hr hle => (State.face_next ho hn hc hno hr).trans (if_pos hle),
        fun r hr hlt => (State.face_next ho hn hc hno hr).trans (if_neg (Nat.not_le.2 hlt)), State.face_free ho hn hc hno⟩
    · rw [hshown]
      rfl
  case frame =>
    intro d shown taken idle
    refine ⟨fun hk => ?panel, fun hk => ⟨fun body rest hf => ?_, State.dropFrame_sensor_idle hk⟩, fun p hs => ?pantry⟩
    case panel =>
      rw [State.dropFrame_panel hk]
      exact ⟨fun a => State.panelFrame_answer, fun ha hst hq => State.panelFrame_show ha hst hq,
        fun code text rest ha hst hf => (State.panelFrame_item ha hst hf).trans (State.handItem_content hf),
        fun body rest ha hst hf => (State.panelFrame_item ha hst hf).trans (State.handItem_service hf),
        fun ha hst hf => State.panelFrame_idle ha hst hf⟩
    case pantry =>
      intro x a joined timer replaying none_
      rw [show none_ = (s.dropFrame c = (s, .poll (some x.taken))) from rfl, State.dropFrame_pantry hs]
      refine ⟨State.pantryFrame_syncing, State.pantryFrame_idleLink, fun i f id o hl hp hf hord ho => ?_,
        fun id rest hl hr hlen hc => ?_, fun id rest o hl hr hlen hc hd ho h1 h2 => ?_, fun hl hr hno => ?_⟩
      · rw [State.pantryFrame_resend hl (Pantry.replaying_some hp hf),
          State.resend_eq (o := o) (by rw [hord]; exact ho), State.order_id ho]
        cases f.kind <;> rfl
      · exact (State.pantryFrame_cancel hl (Pantry.replaying_none hr) hlen hc).trans (State.sendCancel_eq hc)
      · have ha : 0 < x.credit := by
          by_contra hz
          rcases Pantry.credit_eq_zero.1 hz with hz | hz
          · exact absurd h1 (by rw [show a = 0 from hz]; decide)
          · exact absurd h2 (Nat.not_lt.2 hz)
        have hhead : s.headOrder p = some o := by
          rw [State.headOrder, show (s.pantry p).dispatch = id :: rest from hd]
          exact ho
        exact (State.pantryFrame_order hl (Pantry.replaying_none hr) hlen hc hhead ha).trans
          (State.sendOrder_eq (State.order_id ho) hd)
      · have hrep := Pantry.replaying_none hr
        by_cases hlen : 32 ≤ x.replay.length
        · exact State.pantryFrame_full hl hrep hlen
        · obtain ⟨hc, hz⟩ := hno.resolve_left hlen
          exact State.pantryFrame_idle hl hrep (Nat.not_le.1 hlen) hc (hz.imp_right Pantry.credit_eq_zero.2)
    · exact (State.dropFrame_sensor_item hk hf).trans (State.handItem_service hf)

end Sys2Proof.Machine
end

section
/-! PROOFS. The walk of a running line and the start of a turn (R131 to R135). -/

namespace Sys2Proof.Machine

variable {s : State} {l : Nat}

/-! ## A turn's frame leaves the lines as they are -/

theorem State.lines_modDrop (c : DropCode) (f : Drop → Drop) : (s.modDrop c f).lines = s.lines := by
  rw [State.modDrop_frame]

theorem State.lines_handItem (c : DropCode) (item : Item) : (s.handItem c item).1.lines = s.lines := by
  cases item <;> exact State.lines_modDrop c _

theorem State.lines_panelFrame (c : DropCode) : (s.panelFrame c).1.lines = s.lines := by
  unfold State.panelFrame
  simp only
  split
  · exact State.lines_modDrop c _
  · split
    · exact State.lines_modDrop c _
    · exact State.lines_handItem c _
    · split
      · exact State.lines_handItem c _
      · exact State.lines_modDrop c _
    · exact State.lines_modDrop c _

theorem State.lines_resend (p i : Nat) (f : ReplayFrame) : (s.resend p i f).1.lines = s.lines := by
  rw [State.resend]
  cases f.order.bind s.order with
  | none => rfl
  | some o => cases f.kind <;> rfl

theorem State.lines_pantryFrame (p : Nat) : (s.pantryFrame p).1.lines = s.lines := by
  unfold State.pantryFrame
  simp only
  repeat' split
  all_goals first
    | rfl
    | exact State.lines_resend p _ _

theorem State.lines_dropFrame (c : DropCode) : (s.dropFrame c).1.lines = s.lines := by
  unfold State.dropFrame
  simp only
  split
  · exact State.lines_panelFrame c
  · split
    · exact State.lines_handItem c _
    · exact State.lines_modDrop c _
  · split
    · exact State.lines_pantryFrame _
    · exact State.lines_modDrop c _
  · exact State.lines_modDrop c _

/-! ## A turn starts (R134) -/

/-- The state and the frame that a turn starts with. -/
def State.turnFrame (s : State) (l a : Nat) (probe : Bool) : State × DownFrame :=
  if probe then s.handPoll { line := l, addr := a } .probe else s.dropFrame { line := l, addr := a }

/-- The turn set up on its line. -/
def Line.withTurn (x : Line) (a : Nat) (probe : Bool) (frame : DownFrame) : Line :=
  { x with
    cursor := if probe then a else x.cursor
    turn := some { addr := a, probe := probe, timeout := 2 ^ (x.timeoutCode + 1), waits := 0, abandoned := false
                   stage := .sending, frame := frame } }

theorem State.startTurn_eq (l a : Nat) (probe : Bool) : s.startTurn l a probe =
    (s.turnFrame l a probe).1.modLine l fun x => x.withTurn a probe (s.turnFrame l a probe).2 := rfl

theorem State.line_startTurn (hl : l < 4) (a : Nat) (probe : Bool) :
    (s.startTurn l a probe).line l = (s.line l).withTurn a probe (s.turnFrame l a probe).2 := by
  have hlines : (s.turnFrame l a probe).1.lines = s.lines := by
    cases probe with
    | true => exact State.lines_modDrop _ _
    | false => exact State.lines_dropFrame _
  rw [State.startTurn_eq, State.line_modLine_same hl, State.line, hlines]
  rfl

/-! ## The probe rotation (R132) -/

theorem Drop.inRotation_iff {d : Drop} : d.inRotation = true ↔
    d.kind ≠ .unused ∧ (d.mode = .isolated ∨ d.mode = .excluded ∨ d.present = false) := by
  have hserved : d.mode.served = false ↔ d.mode = .isolated ∨ d.mode = .excluded := by
    cases d.mode <;> decide
  rw [Drop.inRotation, Bool.and_eq_true, Bool.or_eq_true, Bool.not_eq_true', Bool.not_eq_true', Bool.not_eq_true',
    hserved, or_assoc, decide_eq_false_iff_not]

/-- The addresses of a line's rotation, ascending. -/
def State.rotation (s : State) (l : Nat) : List Nat :=
  ((lineDrops l).filter fun c => (s.drop c).inRotation).map DropCode.addr

theorem State.mem_rotation {a : Nat} : a ∈ s.rotation l ↔ 1 ≤ a ∧ a ≤ 15 ∧
    (s.drop { line := l, addr := a }).inRotation = true := by
  simp only [State.rotation, List.mem_map, List.mem_filter, mem_lineDrops]
  constructor
  · rintro ⟨⟨line, addr⟩, ⟨⟨rfl, h1, h15⟩, hin⟩, rfl⟩
    exact ⟨h1, h15, hin⟩
  · exact fun ⟨h1, h15, hin⟩ => ⟨{ line := l, addr := a }, ⟨⟨rfl, h1, h15⟩, hin⟩, rfl⟩

theorem State.rotation_ascending : (s.rotation l).Pairwise (· < ·) := by
  have hall : (lineDrops l).map DropCode.addr = List.range' 1 15 := rfl
  refine List.Pairwise.sublist (List.filter_sublist.map DropCode.addr) ?_
  rw [hall]
  exact List.pairwise_lt_range'

theorem State.nextProbe_eq : s.nextProbe l =
    ((s.rotation l).find? fun a => decide ((s.line l).cursor < a)).or (s.rotation l).head? := by
  rw [State.nextProbe, ← State.rotation]
  cases (s.rotation l).find? fun a => decide ((s.line l).cursor < a) <;> rfl

/-- In an ascending list the first that passes a test is the least that does. -/
theorem find?_least {l : List Nat} (h : l.Pairwise (· < ·)) {f : Nat → Bool} {a : Nat} (ha : l.find? f = some a) :
    ∀ b ∈ l, f b = true → a ≤ b := by
  obtain ⟨-, older, newer, rfl, hno⟩ := List.find?_eq_some_iff_append.1 ha
  intro b hb hf
  rcases List.mem_append.1 hb with hb | hb
  · have := hno b hb
    rw [hf] at this
    cases this
  · rcases List.mem_cons.1 hb with rfl | hb
    · exact Nat.le_refl _
    · exact Nat.le_of_lt (List.rel_of_pairwise_cons (List.pairwise_append.1 h).2.1 hb)

/-- The next drop probed: the lowest of the rotation above the cursor, else the lowest. -/
theorem State.nextProbe_some {a : Nat} (h : s.nextProbe l = some a) : a ∈ s.rotation l ∧
    (((s.line l).cursor < a ∧ ∀ b ∈ s.rotation l, (s.line l).cursor < b → a ≤ b) ∨
     ((∀ b ∈ s.rotation l, b ≤ (s.line l).cursor) ∧ ∀ b ∈ s.rotation l, a ≤ b)) := by
  rw [State.nextProbe_eq] at h
  cases hf : (s.rotation l).find? fun a => decide ((s.line l).cursor < a) with
  | some x =>
    rw [hf, Option.some_or, Option.some_inj] at h
    subst h
    have habove := List.find?_some hf
    exact ⟨List.mem_of_find?_eq_some hf, .inl ⟨of_decide_eq_true habove, fun b hb hlt =>
      find?_least State.rotation_ascending hf b hb (decide_eq_true hlt)⟩⟩
  | none =>
    rw [hf, Option.none_or] at h
    have hbelow : ∀ b ∈ s.rotation l, b ≤ (s.line l).cursor := fun b hb =>
      Nat.not_lt.1 fun hlt => List.find?_eq_none.1 hf b hb (decide_eq_true hlt)
    refine ⟨List.mem_of_head? h, .inr ⟨hbelow, fun b hb => ?_⟩⟩
    obtain ⟨rest, hlist⟩ := List.head?_eq_some_iff.1 h
    have hsorted := State.rotation_ascending (s := s) (l := l)
    rw [hlist] at hb hsorted
    rcases List.mem_cons.1 hb with rfl | hb
    · exact Nat.le_refl _
    · exact Nat.le_of_lt (List.rel_of_pairwise_cons hsorted hb)

theorem State.nextProbe_none (h : s.nextProbe l = none) : s.rotation l = [] := by
  rw [State.nextProbe_eq, Option.or_eq_none_iff] at h
  exact List.head?_eq_none_iff.1 h.2

/-! ## The phases (R131, R133) -/

/-- What the phase at a place of the schedule gives a turn to. -/
def State.turnAt (s : State) (l q : Nat) : Option (Nat × Bool) := ((s.line l).schedule[q]?).bind (s.phaseTurn l)

theorem State.phaseTurn_getD (q : Nat) :
    s.phaseTurn l ((s.line l).schedule[q]?.getD .empty) = s.turnAt l q := by
  rw [State.turnAt]
  cases (s.line l).schedule[q]? <;> rfl

/-- The walk with its pointer at a place of the schedule. -/
def State.walkAt (s : State) (l q : Nat) : State := s.modLine l fun x => { x with pointer := q }

section

variable (hl : l < 4)
include hl

theorem State.line_walkAt (q : Nat) : (s.walkAt l q).line l = { s.line l with pointer := q } :=
  State.line_modLine_same hl _

theorem State.turnAt_walkAt (q i : Nat) : (s.walkAt l q).turnAt l i = s.turnAt l i := by
  have hprobe : (s.walkAt l q).nextProbe l = s.nextProbe l := by
    rw [State.nextProbe_eq, State.nextProbe_eq, State.line_walkAt hl]
    rfl
  have hphase : (s.walkAt l q).phaseTurn l = s.phaseTurn l := by
    funext p
    cases p with
    | empty => rfl
    | address a => rfl
    | probe => exact congrArg (Option.map fun a => (a, true)) hprobe
  rw [State.turnAt, hphase, State.line_walkAt hl]
  rfl

theorem State.walk_turn {n q : Nat} {a : Nat} {probe : Bool} (h : s.turnAt l q = some (a, probe)) :
    State.walk l (n + 1) (s.walkAt l q) = (s.walkAt l q).startTurn l a probe := by
  have hpointer : ((s.walkAt l q).line l).pointer = q := by rw [State.line_walkAt hl]
  have hturn := State.phaseTurn_getD (s := s.walkAt l q) (l := l) q
  rw [State.turnAt_walkAt hl, h] at hturn
  simp only [State.walk, hpointer, hturn]

theorem State.walk_skip {n q : Nat} (h : s.turnAt l q = none) :
    State.walk l (n + 1) (s.walkAt l q) = State.walk l n (s.walkAt l ((q + 1) % 32)) := by
  have hpointer : ((s.walkAt l q).line l).pointer = q := by rw [State.line_walkAt hl]
  have hturn := State.phaseTurn_getD (s := s.walkAt l q) (l := l) q
  rw [State.turnAt_walkAt hl, h] at hturn
  have hnext : ((s.walkAt l q).modLine l fun x => { x with pointer := (x.pointer + 1) % 32 }) =
      s.walkAt l ((q + 1) % 32) := State.modLine_modLine l _ _
  simp only [State.walk, hpointer, hturn, hnext]

/-- Phases without a turn are skipped, one by one. -/
theorem State.walk_skips {n q : Nat} (hq : q < 32) (k : Nat) (h : ∀ j, j < k → s.turnAt l ((q + j) % 32) = none) :
    State.walk l (n + k) (s.walkAt l q) = State.walk l n (s.walkAt l ((q + k) % 32)) := by
  induction k generalizing n with
  | zero => rw [Nat.add_zero, Nat.add_zero, Nat.mod_eq_of_lt hq]
  | succ k ih =>
    have hskip := State.walk_skip hl (n := n) (h k (Nat.lt_succ_self k))
    calc State.walk l (n + (k + 1)) (s.walkAt l q)
        = State.walk l (n + 1 + k) (s.walkAt l q) := by rw [Nat.add_assoc, Nat.add_comm 1 k]
      _ = State.walk l (n + 1) (s.walkAt l ((q + k) % 32)) := ih fun j hj => h j (Nat.lt_succ_of_lt hj)
      _ = State.walk l n (s.walkAt l (((q + k) % 32 + 1) % 32)) := hskip
      _ = State.walk l n (s.walkAt l ((q + (k + 1)) % 32)) := by rw [Nat.mod_add_mod, Nat.add_assoc]

omit hl in
theorem State.walkAt_pointer : s.walkAt l (s.line l).pointer = s := State.modLine_id rfl

/-- The first phase with a turn starts it. -/
theorem State.walk_starts {q k : Nat} (hp : (s.line l).pointer = q) (hq : q < 32) (hk : k < 32)
    (hno : ∀ j, j < k → s.turnAt l ((q + j) % 32) = none) {a : Nat} {probe : Bool}
    (h : s.turnAt l ((q + k) % 32) = some (a, probe)) :
    State.walk l 32 s = (s.walkAt l ((q + k) % 32)).startTurn l a probe := by
  obtain ⟨n, hn⟩ : ∃ n, 32 = n + 1 + k := ⟨31 - k, by omega⟩
  calc State.walk l 32 s = State.walk l (n + 1 + k) (s.walkAt l q) := by rw [← hp, State.walkAt_pointer, ← hn]
    _ = State.walk l (n + 1) (s.walkAt l ((q + k) % 32)) := State.walk_skips hl hq k hno
    _ = (s.walkAt l ((q + k) % 32)).startTurn l a probe := State.walk_turn hl h

/-- After 32 skips the walk parks where it began. -/
theorem State.walk_parks {q : Nat} (hp : (s.line l).pointer = q) (hq : q < 32)
    (hno : ∀ k, k < 32 → s.turnAt l ((q + k) % 32) = none) :
    State.walk l 32 s = s.modLine l fun x => { x with walk := .parked } := by
  have hskips := State.walk_skips hl (n := 0) hq 32 hno
  have hback : (q + 32) % 32 = q := by omega
  rw [hback, ← hp, State.walkAt_pointer, Nat.zero_add] at hskips
  exact hskips

end

/-! ## Commands of the walk and the turn -/

theorem exec_walkPhase_idle (h : s.atRest)
    (hno : (s.line l).state ≠ .running ∨ (s.line l).walk = .parked ∨ (s.line l).turn ≠ none) :
    exec (.walkPhase l) s = .next (s.takeDue (.walkPhase l)).sent := by
  show execWalkPhase l s = _
  rw [execWalkPhase, run_next h]
  refine congrArg (fun u : State => Host.Outcome.next u.sent) (if_neg ?_)
  rintro ⟨hrun, hwalk, hturn, -⟩
  have hwalk : (s.line l).walk = .walking := hwalk
  rcases hno with h | h | h
  · exact h hrun
  · rw [hwalk] at h
    cases h
  · exact h hturn

theorem exec_walkPhase_walks (h : s.atRest) (hl : l < 4) (hrun : (s.line l).state = .running)
    (hwalk : (s.line l).walk = .walking) (hturn : (s.line l).turn = none) :
    exec (.walkPhase l) s = .next (State.walk l 32 (s.takeDue (.walkPhase l))).sent := by
  show execWalkPhase l s = _
  rw [execWalkPhase, run_next h]
  exact congrArg (fun u : State => Host.Outcome.next u.sent) (if_pos ⟨hrun, hwalk, hturn, hl⟩)

theorem State.turnOf_running (h : (s.line l).state = .running) : s.turnOf l = (s.line l).turn := if_pos h

theorem exec_downFrameSent (h : s.atRest) {turn : Turn} (hturn : s.turnOf l = some turn) (hst : turn.stage = .sending) :
    exec (.downFrameSent l) s = .next ((s.takeDue (.downFrameSent l)).modLine l fun x =>
      { x with turn := some { turn with stage := .waiting } }).sent := by
  show execDownFrameSent l s = _
  rw [execDownFrameSent, run_next h]
  have ht : (s.takeDue (.downFrameSent l)).turnOf l = some turn := hturn
  simp only [ht, if_pos hst]

theorem exec_upFrameFirstByte (h : s.atRest) (hrun : (s.line l).state = .running) : exec (.upFrameFirstByte l) s =
    .next ((s.takeDue (.upFrameFirstByte l)).modLine l Line.firstByte).sent := by
  show execUpFrameFirstByte l s = _
  rw [execUpFrameFirstByte, run_next h]
  exact congrArg (fun u : State => Host.Outcome.next u.sent) (if_pos hrun)

/-- An answer's first byte takes the turn to its reception. -/
theorem Line.firstByte_waiting {x : Line} {turn : Turn} (ht : x.turn = some turn) (hst : turn.stage = .waiting) :
    x.firstByte = { x.frameOver with turn := some { turn with stage := .receiving } } := by
  simp only [Line.firstByte, ht, hst]

theorem Line.frameOver_none {x : Line} (h : x.incoming = none) : x.frameOver = x := by
  have hno : ¬(x.incoming = some .outside ∧ !x.waitsOut) := by rw [h]; simp
  calc x.frameOver = { x with incoming := none, errors := x.errors } := by rw [Line.frameOver, if_neg hno]
    _ = x := by rw [← h]

/-- Settles O53: the walk by its skips, and the turn as its frame is named, sent and answered. -/
theorem walkStartsTurns : Obligations.WalkStartsTurns := by
  intro s l h hle x c t inRotation turnAt
  have hl : l < 4 := Nat.lt_succ_of_le hle
  have hrot : ∀ a, a ∈ s.rotation l ↔ inRotation a := fun a =>
    State.mem_rotation.trans (and_congr_right' (and_congr_right' Drop.inRotation_iff))
  refine ⟨exec_walkPhase_idle h, fun hrun hwalk hturn hp => ⟨fun k a probe hk hno hyes => ?starts, fun hno => ?parks⟩, rfl,
    fun a => ?addressed, fun a probe hprobe => ?probed, fun hnone a ha => ?rests, fun a probe h1 h15 => ?turn,
    fun turn hrun hturn => ⟨fun hst => ?sent, fun hst hab hinc => ?answered⟩⟩
  case starts =>
    rw [exec_walkPhase_walks h hl hrun hwalk hturn,
      State.walk_starts (s := t) (q := x.pointer) (k := k) hl rfl hp hk hno hyes]
    rfl
  case parks =>
    rw [exec_walkPhase_walks h hl hrun hwalk hturn, State.walk_parks (s := t) (q := x.pointer) hl rfl hp hno]
  case addressed =>
    exact if_congr ((Bool.and_eq_true ..).to_iff.trans (and_congr_left' DropMode.served_iff)) rfl rfl
  case probed =>
    obtain ⟨b, hb, heq⟩ := Option.map_eq_some_iff.1 hprobe
    cases heq
    obtain ⟨hmem, hnext⟩ := State.nextProbe_some hb
    refine ⟨rfl, (hrot a).1 hmem, hnext.imp (fun ⟨hlt, hleast⟩ => ⟨hlt, fun b hb => hleast b ((hrot b).2 hb)⟩)
      fun ⟨hbelow, hleast⟩ => ⟨fun b hb => hbelow b ((hrot b).2 hb), fun b hb => hleast b ((hrot b).2 hb)⟩⟩
  case rests =>
    have hempty := State.nextProbe_none (Option.map_eq_none_iff.1 hnone)
    have hmem := (hrot a).2 ha
    rw [hempty] at hmem
    cases hmem
  case turn =>
    refine ⟨(s.turnFrame l a probe).2, State.line_startTurn hl a probe, ?_⟩
    intro drop set
    refine ⟨fun hp => ?_, fun hp => ?_⟩
    · subst hp
      exact ⟨rfl, rfl⟩
    · subst hp
      exact ⟨rfl, rfl⟩
  case sent => exact exec_downFrameSent h ((State.turnOf_running hrun).trans hturn) hst
  case answered =>
    rw [exec_upFrameFirstByte h hrun]
    refine congrArg (fun u : State => Host.Outcome.next u.sent) (State.modLine_congr ?_)
    show x.firstByte = { x with turn := some { turn with stage := .receiving } }
    rw [Line.firstByte_waiting hturn hst, Line.frameOver_none hinc]

end Sys2Proof.Machine
end

section
/-! PROOFS. The up frame at its end, and the first byte of one (R135, R136, R138, R140, R141). -/

namespace Sys2Proof.Machine

variable {s : State} {l : Nat} {turn : Turn}

/-! ## A frame that is over (R140, R141) -/

theorem Line.waitsOut_none {x : Line} (h : x.turn = none) : x.waitsOut = false := by rw [Line.waitsOut, h]; rfl

theorem Line.waitsOut_sending {x : Line} (h : x.turn = some turn) (hst : turn.stage = .sending) : x.waitsOut = false := by
  rw [Line.waitsOut, h, Option.any_some, hst]
  exact Bool.and_false _

theorem Line.waitsOut_some {x : Line} (h : x.turn = some turn) (hst : turn.stage ≠ .sending) :
    x.waitsOut = turn.abandoned := by
  rw [Line.waitsOut, h, Option.any_some, decide_eq_true hst, Bool.and_true]

/-- A turn that does not wait out its timeout, or no turn. -/
theorem Line.waitsOut_false {x : Line}
    (h : x.turn = none ∨ (x.turn = some turn ∧ (turn.abandoned = false ∨ turn.stage = .sending))) :
    x.waitsOut = false := by
  rcases h with h | ⟨h, hor⟩
  · exact Line.waitsOut_none h
  · by_cases hst : turn.stage = .sending
    · exact Line.waitsOut_sending h hst
    · rw [Line.waitsOut_some h hst]
      exact hor.resolve_right hst

theorem Line.frameOver_outside {x : Line} (h : x.incoming = some .outside) (hw : x.waitsOut = false) :
    x.frameOver = { x with incoming := none, errors := min (x.errors + 1) 65535 } := by
  rw [Line.frameOver, if_pos ⟨h, by rw [hw]; rfl⟩]
  rfl

theorem Line.frameOver_uncounted {x : Line} (h : x.incoming ≠ some .outside ∨ x.waitsOut = true) :
    x.frameOver = { x with incoming := none } := by
  rw [Line.frameOver, if_neg]
  rintro ⟨ho, hw⟩
  rcases h with h | h
  · exact h ho
  · rw [h] at hw
    cases hw

theorem Line.frameOver_eq {x : Line} (hw : x.waitsOut = false) : x.frameOver =
    { x with incoming := none
             errors := if x.incoming = some .outside then min (x.errors + 1) 65535 else x.errors } := by
  by_cases h : x.incoming = some .outside
  · rw [Line.frameOver_outside h hw, if_pos h]
  · rw [Line.frameOver_uncounted (.inl h), if_neg h]

theorem Line.astray_iff {x : Line} : x.astray = true ↔ x.incoming = some .outside ∨ x.incoming = some .discarded :=
  decide_eq_true_iff

/-! ## What becomes of it (R138) -/

/-- The frame in reception is over. -/
def State.frameEnded (s : State) (l : Nat) : State := s.modLine l fun y => { y with incoming := none }

theorem State.takeUpFrame_stopped {frame : Bytes} (h : (s.line l).state ≠ .running) : s.takeUpFrame l frame = s := by
  simp only [State.takeUpFrame, if_neg h]

section

variable {frame : Bytes} (hrun : (s.line l).state = .running)
include hrun

/-- The end of a turn's own answer. -/
theorem State.takeUpFrame_answer (ht : (s.line l).turn = some turn) (hab : turn.abandoned = false)
    (hst : turn.stage ≠ .sending) (hinc : (s.line l).incoming = none ∨ (s.line l).incoming = some .collided) :
    s.takeUpFrame l frame = (s.frameEnded l).takeFrame l turn frame := by
  have hno : ¬((s.line l).incoming = some .outside ∨ (s.line l).incoming = some .discarded) := by
    rcases hinc with h | h <;> rw [h] <;> decide
  have hover : s.modLine l Line.frameOver = s.frameEnded l :=
    State.modLine_congr (Line.frameOver_uncounted (.inl fun h => hno (.inl h)))
  have hwaits : (s.line l).waitsOut = false := (Line.waitsOut_some ht hst).trans hab
  simp only [State.takeUpFrame, if_pos hrun, ht, hwaits, Bool.false_eq_true, if_false,
    if_neg (mt Line.astray_iff.1 hno), if_neg hst, hover]

/-- The end of a frame while an abandoned turn waits out its timeout. -/
theorem State.takeUpFrame_abandoned (ht : (s.line l).turn = some turn) (hab : turn.abandoned = true)
    (hst : turn.stage ≠ .sending) : s.takeUpFrame l frame =
      s.modLine l fun y => { y with incoming := none, turn := some { turn with stage := .waiting } } := by
  have hwaits : (s.line l).waitsOut = true := (Line.waitsOut_some ht hst).trans hab
  have hover : ((s.modLine l Line.frameOver).modLine l fun y => { y with turn := some { turn with stage := .waiting } }) =
      s.modLine l fun y => { y with incoming := none, turn := some { turn with stage := .waiting } } := by
    rw [State.modLine_modLine]
    refine State.modLine_congr ?_
    show { (s.line l).frameOver with turn := some { turn with stage := .waiting } } = _
    rw [Line.frameOver_uncounted (.inr hwaits)]
  simp only [State.takeUpFrame, if_pos hrun, ht, hwaits, if_true, hover]

section

variable (ht : (s.line l).turn = none ∨
  ((s.line l).turn = some turn ∧ (turn.abandoned = false ∨ turn.stage = .sending)))
include ht

/-- A frame that is no turn's answer changes nothing but by its end. -/
theorem State.takeUpFrame_astray
    (hinc : (s.line l).incoming = some .outside ∨ (s.line l).incoming = some .discarded) :
    s.takeUpFrame l frame = s.modLine l Line.frameOver := by
  have hastray := Line.astray_iff.2 hinc
  have hwaits := Line.waitsOut_false ht
  rcases ht with ht | ⟨ht, -⟩
  · simp only [State.takeUpFrame, if_pos hrun, ht, if_pos hastray]
  · simp only [State.takeUpFrame, if_pos hrun, ht, hwaits, Bool.false_eq_true, if_false, if_pos hastray]

theorem State.takeUpFrame_outside (hinc : (s.line l).incoming = some .outside) :
    s.takeUpFrame l frame = (s.frameEnded l).countError l := by
  rw [State.takeUpFrame_astray hrun ht (.inl hinc), State.frameEnded, State.countError, State.modLine_modLine]
  exact State.modLine_congr (Line.frameOver_outside hinc (Line.waitsOut_false ht))

theorem State.takeUpFrame_discarded (hinc : (s.line l).incoming = some .discarded) :
    s.takeUpFrame l frame = s.frameEnded l := by
  rw [State.takeUpFrame_astray hrun ht (.inr hinc)]
  exact State.modLine_congr (Line.frameOver_uncounted (.inl (by rw [hinc]; decide)))

end

/-- A frame that ends while no turn waits is an error. -/
theorem State.takeUpFrame_unasked
    (ht : (s.line l).turn = none ∨ ((s.line l).turn = some turn ∧ turn.stage = .sending))
    (hinc : (s.line l).incoming ≠ some .discarded) : s.takeUpFrame l frame = (s.frameEnded l).countError l := by
  have ht' : (s.line l).turn = none ∨ ((s.line l).turn = some turn ∧ (turn.abandoned = false ∨ turn.stage = .sending)) :=
    ht.imp_right fun ⟨ht, hst⟩ => ⟨ht, .inr hst⟩
  by_cases ho : (s.line l).incoming = some .outside
  · exact State.takeUpFrame_outside hrun ht' ho
  · have hno : ¬(s.line l).astray = true := fun h => (Line.astray_iff.1 h).elim ho hinc
    have hwaits := Line.waitsOut_false ht'
    have hover : s.modLine l Line.frameOver = s.frameEnded l := State.modLine_congr (Line.frameOver_uncounted (.inl ho))
    rcases ht with ht | ⟨ht, hst⟩
    · simp only [State.takeUpFrame, if_pos hrun, ht, if_neg hno, hover]
    · simp only [State.takeUpFrame, if_pos hrun, ht, hwaits, Bool.false_eq_true, if_false, if_neg hno, if_pos hst, hover]

end

/-! ## The outcomes of an answer (R136, R138) -/

section

variable {frame : Bytes} {k : Byte} {b : Bytes}

theorem State.takeFrame_bad (h : checkFrame turn.addr frame = none) :
    s.takeFrame l turn frame = (s.countError l).missTurn l turn := by
  simp only [State.takeFrame, h]

theorem State.takeFrame_wait (h : checkFrame turn.addr frame = some (.wait, k, b)) :
    s.takeFrame l turn frame = s.takeWait l turn := by
  simp only [State.takeFrame, h]

theorem State.takeFrame_good {f : UpFrame} (h : checkFrame turn.addr frame = some (f, k, b)) (hf : f ≠ .wait) :
    s.takeFrame l turn frame = s.goodTurn l turn f k b := by
  rw [State.takeFrame, h]
  cases f with
  | wait => exact absurd rfl hf
  | _ => rfl

end

/-! ## The commands of a frame's end -/

section

variable (h : s.atRest)
include h

theorem exec_upFrameReceived {frame : Bytes} : exec (.upFrameReceived l frame) s =
    .next ((s.takeDue (.upFrameReceived l frame)).takeUpFrame l frame).sent := by
  show execUpFrameReceived l frame s = _
  rw [execUpFrameReceived, commandEnd_next h.1, h.2, Bool.false_and]
  rfl

omit h in
theorem Line.receives_iff {x : Line} : x.receives = true ↔ x.incoming ≠ none ∨ ∃ t, x.turn = some t ∧ t.stage = .receiving := by
  rw [Line.receives, Bool.or_eq_true, Option.isSome_iff_ne_none, Option.any_eq_true]
  simp only [decide_eq_true_eq]

theorem exec_frameEndTimeout (hr : (s.line l).receives = true) : exec (.frameEndTimeout l) s =
    .next ((s.takeDue (.frameEndTimeout l)).takeUpFrame l []).sent := by
  show execFrameEndTimeout l s = _
  rw [execFrameEndTimeout, run_next h]
  exact congrArg (fun u : State => Host.Outcome.next u.sent) (if_pos hr)

theorem exec_frameEndTimeout_idle (hr : ¬(s.line l).receives = true) : exec (.frameEndTimeout l) s =
    .next (s.takeDue (.frameEndTimeout l)).sent := by
  show execFrameEndTimeout l s = _
  rw [execFrameEndTimeout, run_next h]
  exact congrArg (fun u : State => Host.Outcome.next u.sent) (if_neg hr)

theorem exec_answerTimeout (hrun : (s.line l).state = .running) (ht : (s.line l).turn = some turn)
    (hab : turn.abandoned = false) (hst : turn.stage = .waiting) : exec (.answerTimeout l) s =
      .next (((s.takeDue (.answerTimeout l)).countTimeout l).missTurn l turn).sent := by
  show execAnswerTimeout l s = _
  rw [execAnswerTimeout, run_next h]
  have hturn : (s.takeDue (.answerTimeout l)).turnOf l = some turn := (State.turnOf_running hrun).trans ht
  simp only [hturn, hst, hab, Bool.not_false, and_self, if_true]

theorem exec_abandonedTurnEnd (hrun : (s.line l).state = .running) (ht : (s.line l).turn = some turn)
    (hab : turn.abandoned = true) (hst : turn.stage ≠ .sending) : exec (.abandonedTurnEnd l) s =
      .next ((s.takeDue (.abandonedTurnEnd l)).endTurn l).sent := by
  show execAbandonedTurnEnd l s = _
  rw [execAbandonedTurnEnd, run_next h]
  have hturn : (s.takeDue (.abandonedTurnEnd l)).turnOf l = some turn := (State.turnOf_running hrun).trans ht
  have hboth : turn.stage ≠ .sending ∧ turn.abandoned = true := ⟨hst, hab⟩
  simp only [hturn]
  exact congrArg (fun u : State => Host.Outcome.next u.sent) (if_pos hboth)

theorem exec_upFrameFirstByte_stopped (hrun : (s.line l).state ≠ .running) : exec (.upFrameFirstByte l) s =
    .next (s.takeDue (.upFrameFirstByte l)).sent := by
  show execUpFrameFirstByte l s = _
  rw [execUpFrameFirstByte, run_next h]
  exact congrArg (fun u : State => Host.Outcome.next u.sent) (if_neg hrun)

end

/-- A command that ends the frame in reception: by its last byte, or by the timeout of its end. -/
def State.endsFrame (s : State) (l : Nat) (turn : Turn) (c : Instr) (frame : Bytes) : Prop :=
  c = .upFrameReceived l frame ∨ (c = .frameEndTimeout l ∧ frame = [] ∧
    ((s.line l).incoming ≠ none ∨ ((s.line l).turn = some turn ∧ turn.stage = .receiving)))

theorem exec_endsFrame (h : s.atRest) {c : Instr} {frame : Bytes} (hends : s.endsFrame l turn c frame) :
    exec c s = .next ((s.takeDue c).takeUpFrame l frame).sent := by
  rcases hends with rfl | ⟨rfl, rfl, hr⟩
  · exact exec_upFrameReceived h
  · exact exec_frameEndTimeout h (Line.receives_iff.2 (hr.imp_right fun ht => ⟨turn, ht⟩))

/-! ## The first byte (R135) -/

section

variable {x : Line}

theorem Line.firstByte_outside (ht : x.turn = none) : x.firstByte = { x with
    incoming := some .outside
    errors := if x.incoming = some .outside then min (x.errors + 1) 65535 else x.errors } := by
  simp only [Line.firstByte, ht]
  rw [Line.frameOver_eq (Line.waitsOut_none ht)]
  rw [← ht]

theorem Line.firstByte_collides (ht : x.turn = some turn) (hst : turn.stage = .sending) : x.firstByte = { x with
    incoming := some .collided
    errors := if x.incoming = some .outside then min (x.errors + 1) 65535 else x.errors } := by
  simp only [Line.firstByte, ht, hst]
  rw [Line.frameOver_eq (Line.waitsOut_sending ht hst)]
  rw [← ht]

theorem Line.firstByte_answers (ht : x.turn = some turn) (hst : turn.stage = .waiting) : x.firstByte = { x with
    incoming := none
    errors := if turn.abandoned then x.errors
      else if x.incoming = some .outside then min (x.errors + 1) 65535 else x.errors
    turn := some { turn with stage := .receiving } } := by
  have hwaits : x.waitsOut = turn.abandoned := Line.waitsOut_some ht (by rw [hst]; decide)
  rw [Line.firstByte_waiting ht hst]
  cases hab : turn.abandoned with
  | true => rw [Line.frameOver_uncounted (.inr (hwaits.trans hab))]; rfl
  | false => rw [Line.frameOver_eq (hwaits.trans hab)]; rfl

theorem Line.firstByte_receiving (ht : x.turn = some turn) (hst : turn.stage = .receiving) : x.firstByte = x := by
  simp only [Line.firstByte, ht, hst]

end

/-! ## The end of a turn (R131, R141) -/

theorem State.endTurn_frame (l : Nat) :
    s.endTurn l = { s with lines := (s.endTurn l).lines, due := (s.endTurn l).due } := by
  rw [State.endTurn, State.handWalk, State.handOnce_eq]
  rfl

theorem State.line_endTurn (hl : l < 4) : (s.endTurn l).line l = { s.line l with
    turn := none, pointer := if (s.line l).reload then 0 else ((s.line l).pointer + 1) % 32, reload := false
    incoming := (s.line l).leftOver } := by
  rw [State.endTurn, State.handWalk, State.line_handOnce, State.line_modLine_same hl]

theorem State.mem_handOnce (c : Instr) : c ∈ (s.handOnce c).due := by
  rw [State.handOnce_eq]
  show c ∈ if c ∈ s.due then s.due else s.due ++ [c]
  split
  · assumption
  · exact List.mem_append_right _ (List.mem_singleton_self _)

theorem Line.leftOver_none {x : Line} (h : x.turn = none) : x.leftOver = x.incoming := by simp only [Line.leftOver, h]

theorem Line.leftOver_kept {x : Line} (h : x.turn = some turn) (hab : turn.abandoned = false) :
    x.leftOver = if x.incoming = some .collided then some .outside else x.incoming := by
  simp only [Line.leftOver, h, hab, Bool.false_eq_true, if_false]

theorem Line.leftOver_abandoned {x : Line} (h : x.turn = some turn) (hab : turn.abandoned = true) :
    x.leftOver = if turn.stage = .receiving ∨ x.incoming ≠ none then some .discarded else none := by
  simp only [Line.leftOver, h, hab, if_true]

end Sys2Proof.Machine
end

section
/-! PROOFS. The passing on of a good turn's answer (R148, R153, R154). -/

namespace Sys2Proof.Machine

variable {s : State} {c : DropCode}

/-! ## The answer passed on (R148, R153, R154) -/

theorem State.placeUpframe_eq (c : DropCode) (kind : Byte) (body : Bytes) : s.placeUpframe c kind body =
    if s.riser.freed = true ∨ 0 < s.freeEntries then { s with riser := { s.riser with
      freed := false
      localQueue := s.riser.localQueue ++ [.upframe s.floor.building s.floor.floor c kind body] } }
    else { s with riser := { s.riser with upframeDrops := min (s.riser.upframeDrops + 1) 65535 } } := by
  cases hf : s.riser.freed with
  | true =>
    rw [if_pos (.inl rfl)]
    exact if_pos hf
  | false =>
    have hpush (m : UpMsg) : s.pushLocal m =
        { s with riser := { s.riser with freed := false, localQueue := s.riser.localQueue ++ [m] } } := by
      rw [← hf]
      rfl
    have hplace : s.placeUpframe c kind body = if 0 < s.freeEntries then
        s.pushLocal (.upframe s.floor.building s.floor.floor c kind body)
        else s.modRiser fun r => { r with upframeDrops := bump16 r.upframeDrops } :=
      if_neg (by rw [hf]; exact Bool.false_ne_true)
    rw [hplace, hpush, if_congr (or_iff_right (by decide)) rfl rfl]
    rfl

/-- A frame is counted as ignored (R153). -/
def State.ignoredFrame (s : State) (c : DropCode) : State :=
  s.modDrop c fun d => { d with ignoredFrames := min (d.ignoredFrames + 1) 65535 }

section

variable {f : UpFrame} {kind : Byte} {body : Bytes}

theorem State.takeIdent_mismatch {k : DropKind} (hk : (s.drop c).kind ≠ .unused) (hne : (s.drop c).kind ≠ k)
    (hr : (s.drop c).reported ≠ some k) :
    s.takeIdent c k = (s.modDrop c fun d => { d with reported := some k }).raise (dropIndex c) .kindMismatch :=
  if_pos ⟨hk, hne, hr⟩

theorem State.takeIdent_known {k : DropKind}
    (h : (s.drop c).kind = .unused ∨ (s.drop c).kind = k ∨ (s.drop c).reported = some k) :
    s.takeIdent c k = s.modDrop c fun d => { d with reported := some k } :=
  if_neg fun ⟨hk, hne, hr⟩ => h.elim hk fun h => h.elim hne hr

/-- A frame that is an answer for a block or for the server. -/
def UpFrame.answers : UpFrame → Bool
  | .idle | .wait | .ident _ => false
  | _ => true

/-- An answer handed to its block, or placed for the server. -/
def State.relayed (s : State) (c : DropCode) (kind : Byte) (body : Bytes) : Option Instr → State
  | some i => if (s.drop c).mode = .normal then s.hand i else s.placeUpframe c kind body
  | none => s.placeUpframe c kind body

theorem State.passOn_ignored (hf : f.answers = true) (h : ¬(s.sends c f = true ∧ (s.drop c).mode.served = true)) :
    s.passOn c f kind body = s.ignoredFrame c := by
  have hno : (!s.sends c f || !(s.drop c).mode.served) = true := by
    rw [← Bool.not_and, Bool.not_eq_true', ← Bool.not_eq_true, Bool.and_eq_true]
    exact h
  cases f with
  | idle | wait | ident => cases hf
  | _ => exact if_pos hno

theorem State.passOn_relayed (hf : f.answers = true) (hs : s.sends c f = true) (hm : (s.drop c).mode.served = true) :
    s.passOn c f kind body = s.relayed c kind body (frameCommand c (s.drop c).room f) := by
  have hyes : ¬(!s.sends c f || !(s.drop c).mode.served) = true := by rw [hs, hm]; decide
  cases f with
  | idle | wait | ident => cases hf
  | _ =>
    refine (if_neg hyes).trans ?_
    generalize frameCommand c (s.drop c).room _ = cmd
    unfold State.relayed
    generalize (s.drop c).mode = m
    cases m <;> cases cmd <;> rfl

/-- An answer for a block, by its drop's configuration and mode. -/
theorem State.passOn_command {i : Instr} (hf : f.answers = true) (hcmd : frameCommand c (s.drop c).room f = some i)
    {configured : Prop} (hconf : s.sends c f = true ↔ configured) :
    (¬configured ∨ ((s.drop c).mode ≠ .normal ∧ (s.drop c).mode ≠ .shadow) →
      s.passOn c f kind body = s.ignoredFrame c) ∧
    (configured → (s.drop c).mode = .normal → s.passOn c f kind body = s.hand i) ∧
    (configured → (s.drop c).mode = .shadow → s.passOn c f kind body = s.placeUpframe c kind body) := by
  refine ⟨fun h => State.passOn_ignored hf ?_, fun hs hm => ?_, fun hs hm => ?_⟩
  · rintro ⟨hs, hm⟩
    rcases h with h | ⟨hn, hsh⟩
    · exact h (hconf.1 hs)
    · exact (DropMode.served_iff.1 hm).elim hn hsh
  · rw [State.passOn_relayed hf (hconf.2 hs) (DropMode.served_iff.2 (.inl hm)), hcmd]
    exact if_pos hm
  · rw [State.passOn_relayed hf (hconf.2 hs) (DropMode.served_iff.2 (.inr hm)), hcmd]
    exact if_neg (by rw [hm]; decide)

theorem State.passOn_service (x : Bytes) :
    ((s.drop c).mode = .normal ∨ (s.drop c).mode = .shadow →
      s.passOn c (.serviceAnswer x) kind body = s.placeUpframe c kind body) ∧
    ((s.drop c).mode ≠ .normal → (s.drop c).mode ≠ .shadow →
      s.passOn c (.serviceAnswer x) kind body = s.ignoredFrame c) :=
  ⟨fun h => State.passOn_relayed rfl rfl (DropMode.served_iff.2 h),
    fun hn hsh => State.passOn_ignored rfl fun h => (DropMode.served_iff.1 h.2).elim hn hsh⟩

/-- The drop after its answer: the kind that it reported, and a count. -/
def Drop.heard (d : Drop) (f : UpFrame) (ignored : Nat) : Drop :=
  { d with
    reported := match f with
      | .ident k => some k
      | _ => d.reported
    ignoredFrames := ignored }

theorem Drop.heard_other {d : Drop} (h : ∀ k, f ≠ .ident k) (n : Nat) : d.heard f n = { d with ignoredFrames := n } := by
  cases f with
  | ident k => exact absurd rfl (h k)
  | _ => rfl

theorem State.placeUpframe_frame : s.placeUpframe c kind body =
    { s with riser := (s.placeUpframe c kind body).riser } := by
  rw [State.placeUpframe_eq]
  split <;> rfl

theorem State.relayed_frame (cmd : Option Instr) : s.relayed c kind body cmd =
    { s with due := (s.relayed c kind body cmd).due, riser := (s.relayed c kind body cmd).riser } := by
  have hplace : s.placeUpframe c kind body = { s with
      due := (s.placeUpframe c kind body).due, riser := (s.placeUpframe c kind body).riser } := by
    rw [State.placeUpframe_frame]
  cases cmd with
  | none => exact hplace
  | some i =>
    unfold State.relayed
    simp only
    split
    · rfl
    · exact hplace

theorem UpFrame.not_ident (hf : f.answers = true) (k : DropKind) : f ≠ .ident k := by
  rintro rfl
  cases hf

/-- What passing on an answer leaves: the drop as it was heard, and every latch that was set. -/
theorem State.passOn_leaves (hv : validDrop c = true) :
    (∃ n, (s.passOn c f kind body).drop c = (s.drop c).heard f n) ∧
    ∀ i, (s.latch i).isSet = true → ((s.passOn c f kind body).latch i).isSet = true := by
  have hsame (u : State) (hdrops : u.drops = s.drops) (hlatches : u.latches = s.latches) (hid : ∀ k, f ≠ .ident k) :
      (∃ n, u.drop c = (s.drop c).heard f n) ∧ ∀ i, (s.latch i).isSet = true → (u.latch i).isSet = true := by
    refine ⟨⟨(s.drop c).ignoredFrames, ?_⟩, fun i hi => by rwa [State.latch, hlatches]⟩
    rw [Drop.heard_other hid, State.drop, State.drop]
    unfold State.dropAt
    rw [hdrops]
  cases hans : f.answers with
  | true =>
    have hid := UpFrame.not_ident hans
    by_cases h : s.sends c f = true ∧ (s.drop c).mode.served = true
    · rw [State.passOn_relayed hans h.1 h.2, State.relayed_frame]
      exact hsame _ rfl rfl hid
    · rw [State.passOn_ignored hans h, State.ignoredFrame]
      refine ⟨⟨min ((s.drop c).ignoredFrames + 1) 65535, ?_⟩, fun i hi => by rw [State.modDrop_frame]; exact hi⟩
      rw [State.drop_modDrop_same hv, Drop.heard_other hid]
  | false =>
    cases f with
    | idle => exact hsame s rfl rfl fun k => by rintro ⟨⟩
    | wait => exact hsame s rfl rfl fun k => by rintro ⟨⟩
    | ident k =>
      have hdrop : (s.modDrop c fun d => { d with reported := some k }).drop c =
          (s.drop c).heard (.ident k) (s.drop c).ignoredFrames := State.drop_modDrop_same hv _
      have hset : ∀ i, (s.latch i).isSet = true →
          ((s.modDrop c fun d => { d with reported := some k }).latch i).isSet = true := fun i hi => by
        rw [State.modDrop_frame]; exact hi
      show (∃ n, (s.takeIdent c k).drop c = _) ∧ ∀ i, _ → ((s.takeIdent c k).latch i).isSet = true
      by_cases hm : (s.drop c).kind = .unused ∨ (s.drop c).kind = k ∨ (s.drop c).reported = some k
      · rw [State.takeIdent_known hm]
        exact ⟨⟨_, hdrop⟩, hset⟩
      · obtain ⟨hk, hne, hr⟩ := not_or.1 hm |>.imp_right not_or.1
        rw [State.takeIdent_mismatch hk hne hr]
        exact ⟨⟨_, (State.drop_raise ..).trans hdrop⟩, fun i hi => State.isSet_raise _ _ (hset i hi)⟩
    | _ => cases hans

end

end Sys2Proof.Machine
end

section
/-! PROOFS. The outcomes of a turn: a miss, a good answer, and presence (R139, R147, R158). -/

namespace Sys2Proof.Machine

variable {s : State} {l : Nat} {turn : Turn} {c : DropCode}

/-! ## A drop becomes present (R147) -/

theorem State.becomePresent_present (h : (s.drop c).present = true) : s.becomePresent c = s := if_pos h

/-- A drop marked present, with its cause raised. -/
def State.seen (s : State) (c : DropCode) : State :=
  (s.modDrop c fun d => { d.marked with present := true }).raise (dropIndex c) .presence

section

variable (h : (s.drop c).present = false)
include h

theorem State.becomePresent_served {p : Nat} (hs : s.servedPantry c = some p) (hm : (s.drop c).mode = .normal) :
    s.becomePresent c = (s.seen c).linkRise p := by
  refine (if_neg (by rw [h]; exact Bool.false_ne_true)).trans ?_
  simp only [hs, if_pos hm]
  rfl

theorem State.becomePresent_plain (hno : ∀ p, s.servedPantry c = some p → (s.drop c).mode ≠ .normal) :
    s.becomePresent c = s.seen c := by
  refine (if_neg (by rw [h]; exact Bool.false_ne_true)).trans ?_
  cases hs : s.servedPantry c with
  | none => rfl
  | some p => exact if_neg (hno p hs)

/-- Beside the link of the pantry that it serves, a drop's presence is the drop's own. -/
theorem State.becomePresent_pantries : ∃ pantries, s.becomePresent c = { s.seen c with pantries := pantries } := by
  cases hs : s.servedPantry c with
  | none => exact ⟨_, State.becomePresent_plain h fun p hp => by rw [hs] at hp; cases hp⟩
  | some p =>
    by_cases hm : (s.drop c).mode = .normal
    · exact ⟨_, State.becomePresent_served h hs hm⟩
    · exact ⟨_, State.becomePresent_plain h fun _ _ => hm⟩

variable (hv : validDrop c = true)
include hv

theorem State.drop_becomePresent : (s.becomePresent c).drop c = { (s.drop c).marked with present := true } := by
  obtain ⟨pantries, heq⟩ := State.becomePresent_pantries h
  rw [heq]
  exact (State.drop_raise ..).trans (State.drop_modDrop_same hv _)

theorem State.latch_becomePresent : ((s.becomePresent c).latch (dropIndex c)).isSet = true := by
  obtain ⟨pantries, heq⟩ := State.becomePresent_pantries h
  have hlt : dropIndex c < 121 := Nat.lt_of_lt_of_le (dropIndex_lt hv) (by decide)
  rw [heq]
  exact State.latch_raise_isSet hlt .presence

end

theorem Drop.marked_fields (d : Drop) : d.marked = { d with stale := if d.kind = .roomPanel then true else d.stale } := by
  unfold Drop.marked
  split <;> rfl

/-! ## A good turn (R139) -/

section

variable {f : UpFrame} {k : Byte} {b : Bytes}

/-- The drop whose turn ended good, before its answer is passed on. -/
def State.answered (s : State) (c : DropCode) : State :=
  (s.modDrop c fun d => { d with miss := 0, inFlight := .none }).becomePresent c

theorem State.goodTurn_eq : s.goodTurn l turn f k b =
    ((s.answered { line := l, addr := turn.addr }).endTurn l).passOn { line := l, addr := turn.addr } f k b := rfl

theorem State.drop_answered (hv : validDrop c = true) : (s.answered c).drop c = { s.drop c with
    miss := 0, inFlight := .none, present := true
    stale := if (s.drop c).present = false ∧ (s.drop c).kind = .roomPanel then true else (s.drop c).stale } := by
  have hmod : (s.modDrop c fun d => { d with miss := 0, inFlight := .none }).drop c =
      { s.drop c with miss := 0, inFlight := .none } := State.drop_modDrop_same hv _
  have hpresent := congrArg Drop.present hmod
  cases hp : (s.drop c).present with
  | true =>
    have hno : ¬(true = false ∧ (s.drop c).kind = .roomPanel) := fun h => Bool.false_ne_true h.1.symm
    rw [State.answered, State.becomePresent_present (hpresent.trans hp), hmod, if_neg hno, ← hp]
  | false =>
    rw [State.answered, State.drop_becomePresent (hpresent.trans hp) hv, hmod, Drop.marked_fields,
      if_congr (and_iff_right rfl) rfl rfl]

theorem State.drop_endTurn (c : DropCode) : (s.endTurn l).drop c = s.drop c := by rw [State.endTurn_frame]; rfl

theorem State.goodTurn_leaves (hv : validDrop { line := l, addr := turn.addr } = true) :
    let c : DropCode := { line := l, addr := turn.addr }
    (∃ n, (s.goodTurn l turn f k b).drop c = ((s.answered c).drop c).heard f n) ∧
      ((s.drop c).present = false → ((s.goodTurn l turn f k b).latch (dropIndex c)).isSet = true) := by
  intro c
  obtain ⟨⟨n, hdrop⟩, hset⟩ := State.passOn_leaves (s := (s.answered c).endTurn l) (f := f) (kind := k) (body := b) hv
  rw [State.drop_endTurn] at hdrop
  refine ⟨⟨n, hdrop⟩, fun hp => hset _ ?_⟩
  have habsent : ((s.modDrop c fun d => { d with miss := 0, inFlight := .none }).drop c).present = false :=
    (congrArg Drop.present (State.drop_modDrop_same hv _)).trans hp
  rw [State.endTurn_frame]
  exact State.latch_becomePresent habsent hv

end

/-! ## A miss (R139, R147) -/

section

/-- A drop with one more miss, its in-flight item lost (R158). -/
def State.missed (s : State) (c : DropCode) : State :=
  s.modDrop c fun d => { d.loseItem with miss := min 3 (d.miss + 1) }

theorem State.missTurn_eq : s.missTurn l turn =
    (if ((s.missed { line := l, addr := turn.addr }).drop { line := l, addr := turn.addr }).miss = 3 then
      (s.missed { line := l, addr := turn.addr }).becomeAbsent { line := l, addr := turn.addr }
      else s.missed { line := l, addr := turn.addr }).endTurn l := rfl

variable (hv : validDrop { line := l, addr := turn.addr } = true)
include hv

theorem State.missTurn_lost (h : 2 ≤ (s.drop { line := l, addr := turn.addr }).miss) : s.missTurn l turn =
    ((s.missed { line := l, addr := turn.addr }).becomeAbsent { line := l, addr := turn.addr }).endTurn l := by
  rw [State.missTurn_eq, if_pos]
  rw [State.missed, State.drop_modDrop_same hv]
  show min 3 _ = 3
  omega

theorem State.missTurn_stays (h : ¬((s.drop { line := l, addr := turn.addr }).present = true ∧
    2 ≤ (s.drop { line := l, addr := turn.addr }).miss)) :
    s.missTurn l turn = (s.missed { line := l, addr := turn.addr }).endTurn l := by
  by_cases hm : 2 ≤ (s.drop { line := l, addr := turn.addr }).miss
  · have hp : ((s.missed { line := l, addr := turn.addr }).drop { line := l, addr := turn.addr }).present = false := by
      rw [State.missed, State.drop_modDrop_same hv, Drop.loseItem_eq]
      exact Bool.eq_false_iff.2 fun hp => h ⟨hp, hm⟩
    rw [State.missTurn_lost hv hm, State.becomeAbsent_absent hp]
  · rw [State.missTurn_eq, if_neg]
    rw [State.missed, State.drop_modDrop_same hv]
    show ¬min 3 _ = 3
    omega

theorem State.drop_missTurn : (s.missTurn l turn).drop { line := l, addr := turn.addr } =
    { (s.drop { line := l, addr := turn.addr }).loseItem with
      miss := min 3 ((s.drop { line := l, addr := turn.addr }).miss + 1)
      present := (s.drop { line := l, addr := turn.addr }).present &&
        decide ((s.drop { line := l, addr := turn.addr }).miss < 2) } := by
  have hmissed := State.drop_modDrop_same (s := s) hv fun d => { d.loseItem with miss := min 3 (d.miss + 1) }
  have hpresent : (s.drop { line := l, addr := turn.addr }).loseItem.present =
      (s.drop { line := l, addr := turn.addr }).present := by rw [Drop.loseItem_eq]
  by_cases h : (s.drop { line := l, addr := turn.addr }).present = true ∧
      2 ≤ (s.drop { line := l, addr := turn.addr }).miss
  · rw [State.missTurn_lost hv h.2, State.drop_endTurn, State.drop_becomeAbsent, State.drop_modDrop_same hv, State.missed,
      hmissed, decide_eq_false (Nat.not_lt.2 h.2), Bool.and_false]
  · have hkeep : ((s.drop { line := l, addr := turn.addr }).present &&
        decide ((s.drop { line := l, addr := turn.addr }).miss < 2)) =
        (s.drop { line := l, addr := turn.addr }).loseItem.present := by
      rw [hpresent, Bool.and_eq_left_iff_imp]
      exact fun hp => decide_eq_true (Nat.not_le.1 fun hm => h ⟨hp, hm⟩)
    rw [State.missTurn_stays hv h, State.drop_endTurn, State.missed, hmissed, hkeep]

/-- A drop that stays as present as it was raises nothing. -/
theorem State.missTurn_raisesNothing (h : ¬((s.drop { line := l, addr := turn.addr }).present = true ∧
    2 ≤ (s.drop { line := l, addr := turn.addr }).miss)) :
    (s.missTurn l turn).latches = s.latches ∧ (s.missTurn l turn).unsent = s.unsent ∧
      (s.missTurn l turn).riser = s.riser ∧ (s.missTurn l turn).pantries = s.pantries := by
  rw [State.missTurn_stays hv h, State.endTurn_frame, State.missed, State.modDrop_frame]
  exact ⟨rfl, rfl, rfl, rfl⟩

end

section

variable {t : State} (ht : t = s.withTables t) (hp : (t.drop c).present = true)
include ht hp

/-- The cause of a drop that is lost is raised as it would be before any change of tables. -/
theorem State.becomeAbsent_raised : (t.becomeAbsent c).latches = (s.raise (dropIndex c) .presence).latches ∧
    (t.becomeAbsent c).unsent = (s.raise (dropIndex c) .presence).unsent ∧
    (t.becomeAbsent c).riser = (s.raise (dropIndex c) .presence).riser := by
  obtain ⟨u, hu⟩ : ∃ u, u = t.modDrop c fun d => { d with present := false } := ⟨_, rfl⟩
  have hsame : u = s.withTables u := by
    rw [hu, State.modDrop_frame, ht]
    rfl
  have hraise : u.raise (dropIndex c) .presence = (s.raise (dropIndex c) .presence).withTables u := by
    conv_lhs => rw [hsame, State.raise_withTables]
  rw [State.becomeAbsent_present hp, ← hu, hraise]
  cases t.servedPantry c <;> exact ⟨rfl, rfl, rfl⟩

end

section

variable (hp : (s.drop c).present = true)
include hp

/-- A drop that serves no pantry leaves them all. -/
theorem State.pantries_becomeAbsent (hs : s.servedPantry c = none) : (s.becomeAbsent c).pantries = s.pantries := by
  rw [State.becomeAbsent_present hp, hs, State.raise_frame, State.modDrop_frame]

/-- One that serves a pantry takes its link DOWN. -/
theorem State.pantry_becomeAbsent {p : Nat} (hs : s.servedPantry c = some p) : (s.becomeAbsent c).pantry p =
    if (s.pantry p).link = .down then s.pantry p
    else { s.pantry p with link := .down, replayPos := none, replayTimer := none } := by
  have hpantry : ((s.modDrop c fun d => { d with present := false }).raise (dropIndex c) .presence).pantry p =
      s.pantry p := by
    rw [State.pantry_raise, State.modDrop_frame]
    rfl
  rw [State.becomeAbsent_present hp, hs, ← hpantry]
  exact State.pantry_linkDown (State.servedPantry_lt hs)

end

theorem State.orders_becomeAbsent (c : DropCode) : (s.becomeAbsent c).orders = s.orders := by
  cases hp : (s.drop c).present with
  | false => rw [State.becomeAbsent_absent hp]
  | true =>
    rw [State.becomeAbsent_present hp, State.raise_frame, State.modDrop_frame]
    cases s.servedPantry c <;> rfl

/-! ### What a missed turn leaves (R147) -/

section

variable (hv : validDrop { line := l, addr := turn.addr } = true)
include hv

omit hv in
theorem State.orders_missTurn : (s.missTurn l turn).orders = s.orders := by
  rw [State.missTurn_eq, State.endTurn_frame]
  show (if _ then _ else _ : State).orders = s.orders
  split
  · rw [State.orders_becomeAbsent, State.missed, State.modDrop_frame]
  · rw [State.missed, State.modDrop_frame]

variable (hp : (s.drop { line := l, addr := turn.addr }).present = true)
  (hm : 2 ≤ (s.drop { line := l, addr := turn.addr }).miss)
include hp hm

omit hm in
/-- The drop is still present as its third miss is counted. -/
theorem State.missed_present : ((s.missed { line := l, addr := turn.addr }).drop { line := l, addr := turn.addr }).present =
    true := by
  rw [State.missed, State.drop_modDrop_same hv, Drop.loseItem_eq]
  exact hp

/-- The third miss of a present drop raises its cause. -/
theorem State.missTurn_raises : let raised := s.raise (dropIndex { line := l, addr := turn.addr }) .presence
    (s.missTurn l turn).latches = raised.latches ∧ (s.missTurn l turn).unsent = raised.unsent ∧
      (s.missTurn l turn).riser = raised.riser := by
  have htables : s.missed { line := l, addr := turn.addr } = s.withTables (s.missed { line := l, addr := turn.addr }) := by
    conv_lhs => rw [State.missed, State.modDrop_frame]
    rw [State.missed, State.modDrop_frame]
    rfl
  rw [State.missTurn_lost hv hm, State.endTurn_frame]
  exact State.becomeAbsent_raised htables (State.missed_present hv hp)

omit hv hp hm in
theorem State.missed_servedPantry : (s.missed { line := l, addr := turn.addr }).servedPantry { line := l, addr := turn.addr } =
    s.servedPantry { line := l, addr := turn.addr } :=
  (State.modDrop_absence (fun d => by rw [Drop.loseItem_eq]) fun d => by rw [Drop.loseItem_eq]).servedPantry _

theorem State.missTurn_link {p : Nat} (hs : s.servedPantry { line := l, addr := turn.addr } = some p) :
    (s.missTurn l turn).pantry p = if (s.pantry p).link = .down then s.pantry p
      else { s.pantry p with link := .down, replayPos := none, replayTimer := none } := by
  have hpantry : (s.missed { line := l, addr := turn.addr }).pantry p = s.pantry p := by
    rw [State.missed, State.modDrop_frame]
    rfl
  rw [State.missTurn_lost hv hm, State.endTurn_frame, ← hpantry]
  exact State.pantry_becomeAbsent (State.missed_present hv hp) (State.missed_servedPantry.trans hs)

theorem State.missTurn_noLink (hs : s.servedPantry { line := l, addr := turn.addr } = none) :
    (s.missTurn l turn).pantries = s.pantries := by
  rw [State.missTurn_lost hv hm, State.endTurn_frame]
  show ((s.missed _).becomeAbsent _).pantries = _
  rw [State.pantries_becomeAbsent (State.missed_present hv hp) (State.missed_servedPantry.trans hs),
    State.missed, State.modDrop_frame]

end

end Sys2Proof.Machine
end

section
/-! PROOFS. How a turn ends (R135 to R142, R147, R148, R153, R154). -/

namespace Sys2Proof.Machine

variable {s : State} {l : Nat} {turn : Turn} {c : DropCode}

/-! ## Configurations that a frame needs (R153) -/

theorem State.sends_panel (n : Nat) : s.sends c (.walkup n) = true ↔
    (s.drop c).kind = .roomPanel ∧ (s.drop c).room ≠ none :=
  (Bool.and_eq_true ..).to_iff.trans (and_congr decide_eq_true_iff Option.isSome_iff_ne_none)

theorem State.sends_sensor (n : Nat) : s.sends c (.sample n) = true ↔
    (s.drop c).kind = .roomSensor ∧ (s.drop c).room ≠ none :=
  (Bool.and_eq_true ..).to_iff.trans (and_congr decide_eq_true_iff Option.isSome_iff_ne_none)

/-! ## An up frame and a late grant (R173; log entry 50) -/

section

variable {frame : Bytes} (hlow : s.resetLow = false)
include hlow

/-- A frame that brings an UPFRAME comes before the late grant. -/
theorem exec_upFrameReceived_first
    (h : ((s.takeDue (.upFrameReceived l frame)).takeUpFrame l frame).riser.freed = false) :
    exec (.upFrameReceived l frame) s = .next ((s.takeDue (.upFrameReceived l frame)).takeUpFrame l frame).sent := by
  show execUpFrameReceived l frame s = _
  rw [execUpFrameReceived, commandEnd_next hlow, h, Bool.and_false]
  rfl

/-- Any other comes after it. -/
theorem exec_upFrameReceived_settled (hfreed : s.riser.freed = true)
    (h : ((s.takeDue (.upFrameReceived l frame)).takeUpFrame l frame).riser.freed = true) :
    exec (.upFrameReceived l frame) s = exec (.upFrameReceived l frame) s.settled := by
  have hlow' : s.settled.resetLow = false := State.settled_resetLow.trans hlow
  show execUpFrameReceived l frame s = execUpFrameReceived l frame s.settled
  rw [execUpFrameReceived, execUpFrameReceived, commandEnd_next hlow, commandEnd_next hlow', h, hfreed,
    State.settled_freed, Bool.false_and]
  rfl

end

theorem State.turnOf_some (h : s.turnOf l = some turn) : (s.line l).state = .running ∧ (s.line l).turn = some turn := by
  unfold State.turnOf at h
  split at h
  · exact ⟨‹_›, h⟩
  · cases h

theorem validDrop_of {a : Nat} (hl : l ≤ 3) (h1 : 1 ≤ a) (h15 : a ≤ 15) : validDrop { line := l, addr := a } = true := by
  simp only [validDrop, Bool.and_eq_true, decide_eq_true_eq]
  exact ⟨⟨hl, h1⟩, h15⟩

/-- Settles O54: by the turn's stage and its frame, and by what a miss and a good answer leave. -/
theorem turnsEndWithTheirOutcome : Obligations.TurnsEndWithTheirOutcome := by
  refine ⟨fun s c kind body => ?passing, fun s l turn f kind body h1 h15 hle => ?presence,
    fun s l frame hlow hfreed => ?late, fun s l turn h hle => ?ending⟩
  case passing =>
    intro d ignored up panel sensor src passed
    have hup : s.placeUpframe c kind body = up := State.placeUpframe_eq c kind body
    have hpassed : ∀ {f : UpFrame} {configured : Prop} {i : Instr}, f.answers = true →
        frameCommand c d.room f = some i → (s.sends c f = true ↔ configured) → passed f configured i := by
      intro f configured i hf hcmd hconf
      obtain ⟨hno, hnormal, hshadow⟩ := State.passOn_command (kind := kind) (body := body) hf hcmd hconf
      exact ⟨hno, hnormal, fun hc hm => (hshadow hc hm).trans hup⟩
    refine ⟨rfl, fun k => ⟨State.takeIdent_mismatch, State.takeIdent_known⟩, hpassed rfl rfl (State.sends_panel 0),
      hpassed rfl rfl (State.sends_panel 0), hpassed rfl rfl (State.sends_panel 0),
      fun n => hpassed rfl rfl (State.sends_panel 0), fun x => hpassed rfl rfl (State.sends_panel 0),
      fun x => hpassed rfl rfl (State.sends_sensor 0), fun x => hpassed rfl rfl Option.isSome_iff_ne_none,
      fun x => ⟨fun hm => ((State.passOn_service x).1 hm).trans hup, (State.passOn_service x).2⟩⟩
  case presence =>
    intro drop
    have hv : validDrop drop = true := validDrop_of hle h1 h15
    refine ⟨rfl, State.becomePresent_present, fun hp => ⟨?_, fun hk => ?_, fun p hs hm hdown => ?_⟩⟩
    · rw [State.drop_becomePresent hp hv]
    · rw [State.drop_becomePresent hp hv, Drop.marked_fields]
      exact if_pos hk
    · have hseen : (s.seen drop).pantry p = s.pantry p := by
        rw [State.seen, State.pantry_raise, State.modDrop_frame]
        rfl
      rw [State.becomePresent_served hp hs hm, State.pantry_linkRise (State.servedPantry_lt hs), hseen, if_pos hdown]
  case late =>
    intro c v
    refine ⟨exec_upFrameReceived_first hlow, exec_upFrameReceived_settled hlow hfreed,
      fun turn f k b hturn hst hab hinc hcheck hf => ?_⟩
    obtain ⟨hrun, ht⟩ := State.turnOf_some hturn
    exact (State.takeUpFrame_answer (s := s.takeDue c) hrun ht hab hst hinc).trans (State.takeFrame_good hcheck hf)
  case ending =>
    intro x drop error timeout ended ends
    have hl : l < 4 := Nat.lt_succ_of_le hle
    have hexec : ∀ {c frame}, ends c frame → exec c s = .next ((s.takeDue c).takeUpFrame l frame).sent :=
      fun he => exec_endsFrame h he
    have hnext : ∀ {c frame} {u : State}, ends c frame → (s.takeDue c).takeUpFrame l frame = u →
        exec c s = .next u.sent := fun he hu => by rw [hexec he, hu]
    refine ⟨checkFrame_nil, fun hrun ht hab => ⟨exec_answerTimeout h hrun ht hab, fun hst hinc c frame he => ?answer⟩,
      fun hrun ht hab hst => ⟨fun c frame he => hnext he (State.takeUpFrame_abandoned hrun ht hab hst),
        exec_abandonedTurnEnd h hrun ht hab hst⟩,
      fun c frame he => ⟨fun hrun ht hinc => hnext he (State.takeUpFrame_unasked hrun ht hinc),
        fun hrun ht => ⟨fun hinc => hnext he (State.takeUpFrame_outside hrun ht hinc),
          fun hinc => hnext he (State.takeUpFrame_discarded hrun ht hinc)⟩,
        fun hstop => hnext he (State.takeUpFrame_stopped hstop)⟩,
      fun hinc ht => exec_frameEndTimeout_idle h fun hr => ?unheard, ?firstByte, ?ended, fun h1 h15 => ?outcomes⟩
    case answer =>
      intro t
      have htake : (s.takeDue c).takeUpFrame l frame = t.takeFrame l turn frame :=
        State.takeUpFrame_answer (s := s.takeDue c) hrun ht hab hst hinc
      exact ⟨fun hcheck => hnext he (htake.trans (State.takeFrame_bad hcheck)),
        fun k b hcheck hw => hnext he (htake.trans ((State.takeFrame_wait hcheck).trans (if_pos hw))),
        fun k b hcheck hw => hnext he (htake.trans ((State.takeFrame_wait hcheck).trans (if_neg (Nat.not_lt.2 hw)))),
        fun f k b hcheck hf => hnext he (htake.trans (State.takeFrame_good hcheck hf))⟩
    case unheard =>
      rcases Line.receives_iff.1 hr with hin | ⟨y, hy, hrec⟩
      · exact hin hinc
      · rcases ht with ht | ⟨ht, hst⟩
        · exact Option.some_ne_none y (hy.symm.trans ht)
        · have heq : y = turn := Option.some_inj.1 (hy.symm.trans ht)
          exact hst (heq ▸ hrec)
    case firstByte =>
      intro c t counted
      have hfirst : x.state = .running → ∀ {g : Line → Line}, x.firstByte = g x →
          exec c s = .next (t.modLine l g).sent := by
        intro hrun g hg
        rw [exec_upFrameFirstByte h hrun]
        exact congrArg (fun u : State => Host.Outcome.next u.sent) (State.modLine_congr hg)
      refine ⟨exec_upFrameFirstByte_stopped h, fun hrun ht => hfirst hrun (Line.firstByte_outside ht), fun hrun ht =>
        ⟨fun hst => hfirst hrun (Line.firstByte_collides ht hst), fun hst => hfirst hrun (Line.firstByte_answers ht hst),
          fun hst => (hfirst hrun (g := id) (Line.firstByte_receiving ht hst)).trans ?_⟩⟩
      rw [State.modLine_id rfl]
    case ended =>
      intro y
      have hy : y = { x with turn := none, pointer := if x.reload then 0 else (x.pointer + 1) % 32, reload := false
                             incoming := x.leftOver } := State.line_endTurn hl
      have hin : y.incoming = x.leftOver := by rw [hy]
      exact ⟨by rw [hin]; exact hy, fun ht => hin.trans (Line.leftOver_none ht),
        fun ht hab => hin.trans (Line.leftOver_kept ht hab), fun ht hab => hin.trans (Line.leftOver_abandoned ht hab),
        State.mem_handOnce _⟩
    case outcomes =>
      intro d u
      have hv : validDrop drop = true := validDrop_of hle h1 h15
      have hdrop : u.drop drop = { d.loseItem with
          miss := min 3 (d.miss + 1), present := d.present && decide (d.miss < 2) } := State.drop_missTurn hv
      rw [Drop.loseItem_eq] at hdrop
      rw [hdrop]
      refine ⟨⟨rfl, rfl, rfl, rfl, rfl, fun hshow => if_pos hshow, fun hitem => if_pos hitem⟩, ?lost, fun f k b => ?good⟩
      case lost =>
        intro lost raised
        refine ⟨fun ⟨hp, hm⟩ => ?_, fun hno => ?_, fun hor => ?_, State.orders_missTurn⟩
        · obtain ⟨hlatches, hunsent, hriser⟩ := State.missTurn_raises hv hp hm
          refine ⟨hlatches, hunsent, hriser, fun p hs => ⟨fun hdown => ?_, fun hup => ?_⟩⟩
          · exact (State.missTurn_link hv hp hm hs).trans (if_pos hdown)
          · exact (State.missTurn_link hv hp hm hs).trans (if_neg hup)
        · obtain ⟨hlatches, hunsent, hriser, -⟩ := State.missTurn_raisesNothing hv hno
          exact ⟨hlatches, hunsent, hriser⟩
        · by_cases hlost : lost
          · exact State.missTurn_noLink hv hlost.1 hlost.2 (hor.resolve_left fun hno => hno hlost)
          · exact (State.missTurn_raisesNothing hv hlost).2.2.2
      case good =>
        intro v
        obtain ⟨⟨n, hheard⟩, hset⟩ := State.goodTurn_leaves (s := s) (f := f) (k := k) (b := b) hv
        have hheard : v.drop drop = ((s.answered drop).drop drop).heard f n := hheard
        rw [hheard, State.drop_answered hv]
        exact ⟨rfl, rfl, rfl, rfl, rfl, fun j hj => by rw [hj]; rfl, hset⟩

end Sys2Proof.Machine
end
